-- ==== Sys2Proof/Word.lean ====
section
/-!
DEFINITION. The three widths of the block (spec/00_scope.md R7): a byte, a 64-bit word of the datapath and a
32-bit register of the host port. All values are unsigned.
-/

namespace Sys2Proof

/-- A byte of a byte string (R7). -/
abbrev Byte := BitVec 8

/-- A word of a state bank: 64 bits (R7, R20). -/
abbrev Word := BitVec 64

/-- A register or a buffer word as the 32-bit host port carries it, and a command word (R7, R60, R90). -/
abbrev Reg := BitVec 32

end Sys2Proof
end

