-- ==== Sys2Proof/Syntax.lean ====
section
/-!
DEFINITION. The commands of the block as syntax: one constructor of `Instr` for each row of spec/opcode_table.json
(spec/30_encoding.md R98, R99), with the fields of R90 turned into closed types.
-/

namespace Sys2Proof

/-- The scheme `s` that the field SCH selects (R10, R92): 0 is Elephant, 1 is ISAP. -/
inductive Scheme where
  | elephant
  | isap
deriving DecidableEq, Repr, Inhabited

/-- The bank that the field BANK selects (R93): 0 is A, 1 is B. -/
inductive BankSel where
  | a
  | b
deriving DecidableEq, Repr, Inhabited

/-- The other bank, `S'` of R93. -/
def BankSel.other : BankSel → BankSel
  | .a => .b
  | .b => .a

/-- SRC, X[0] of ABSORB (R95): where the absorbed bytes are read. -/
inductive AbsorbSource where
  | ibuf
  | obuf
deriving DecidableEq, Repr, Inhabited

/-- DSEL, X of SQUEEZE (R95): where the squeezed bytes go. The value 11 is illegal and has no name. -/
inductive SqueezeDest where
  | obuf
  | tagout
  | texp
deriving DecidableEq, Repr, Inhabited

/-- The twelve opcodes of R99. -/
inductive Opcode where
  | nop | aeadEnc | aeadDec | clear | init | absorb | squeeze | enc | dec | permute | copy | verify
deriving DecidableEq, Repr, Inhabited

/-- One command with its field values (R98). -/
inductive Instr where
  /-- NOP (R209). -/
  | nop
  /-- AEAD_ENC.s (R201). -/
  | aeadEnc (sch : Scheme)
  /-- AEAD_DEC.s (R202). -/
  | aeadDec (sch : Scheme)
  /-- CLEAR (R208). -/
  | clear
  /-- INIT.s bank[, SFX] (R168). -/
  | init (sch : Scheme) (bank : BankSel) (sfx : Bool)
  /-- ABSORB.s bank, dom[, src=OBUF] (R169). -/
  | absorb (sch : Scheme) (bank : BankSel) (src : AbsorbSource) (dom : Byte)
  /-- SQUEEZE.s bank -> dest (R170). -/
  | squeeze (sch : Scheme) (bank : BankSel) (dest : SqueezeDest)
  /-- ENC.s bank[, LS] (R171). -/
  | enc (sch : Scheme) (bank : BankSel) (ls : Bool)
  /-- DEC.s bank[, LS] (R172). -/
  | dec (sch : Scheme) (bank : BankSel) (ls : Bool)
  /-- PERMUTE.s bank, rnd (R136). -/
  | permute (sch : Scheme) (bank : BankSel) (rnd : BitVec 4)
  /-- COPY dst (R173): BANK names the destination. -/
  | copy (dst : BankSel)
  /-- VERIFY.s (R206). -/
  | verify (sch : Scheme)
deriving DecidableEq, Repr, Inhabited

/-- The opcode of a command (R99). -/
def Instr.opcode : Instr → Opcode
  | .nop => .nop
  | .aeadEnc _ => .aeadEnc
  | .aeadDec _ => .aeadDec
  | .clear => .clear
  | .init _ _ _ => .init
  | .absorb _ _ _ _ => .absorb
  | .squeeze _ _ _ => .squeeze
  | .enc _ _ _ => .enc
  | .dec _ _ _ => .dec
  | .permute _ _ _ => .permute
  | .copy _ => .copy
  | .verify _ => .verify

end Sys2Proof
end

