-- ==== Sys2Proof/WellFormed.lean ====
section
/-!
DEFINITION. Which commands the encoding admits (spec/30_encoding.md R98, R100). The closed types of `Syntax.lean`
leave one condition to check: PERMUTE's round count is at most 12 (R96).
-/

namespace Sys2Proof

/-- The legality of R98 and R96 that the syntax does not carry by its types: RND <= 12. -/
def Instr.wellFormed : Instr → Bool
  | .nop => true
  | .aeadEnc _ => true
  | .aeadDec _ => true
  | .clear => true
  | .init _ _ _ => true
  | .absorb _ _ _ _ => true
  | .squeeze _ _ _ => true
  | .enc _ _ _ => true
  | .dec _ _ _ => true
  | .permute _ _ rnd => decide (rnd.toNat ≤ 12)
  | .copy _ => true
  | .verify _ => true

/-- A command the encoding admits, as a proposition. -/
abbrev Instr.WellFormed (i : Instr) : Prop := i.wellFormed = true

end Sys2Proof
end

