-- ==== Sys2Proof/Decode.lean ====
section
/-!
DEFINITION. The command word (spec/30_encoding.md): its fields (R90), the table of R98, decode, total on every
32-bit word and rejecting by name (R100, R101), the encoder (R103) and the assembler's spelling (R103).
-/

namespace Sys2Proof

/-! ## Fields of R90 -/

/-- OP, bits 7:0 (R91). -/
def fieldOp (w : Reg) : BitVec 8 := w.extractLsb' 0 8

/-- SCH, bits 9:8 (R92). -/
def fieldSch (w : Reg) : BitVec 2 := w.extractLsb' 8 2

/-- BANK, bit 10 (R93). -/
def fieldBank (w : Reg) : Bool := w.getLsbD 10

/-- LS, bit 11 (R94). -/
def fieldLs (w : Reg) : Bool := w.getLsbD 11

/-- X, bits 13:12 (R95). -/
def fieldX (w : Reg) : BitVec 2 := w.extractLsb' 12 2

/-- RND, bits 19:16 (R96). -/
def fieldRnd (w : Reg) : BitVec 4 := w.extractLsb' 16 4

/-- DOM, bits 31:24 (R97). -/
def fieldDom (w : Reg) : Byte := w.extractLsb' 24 8

/-! ## The table of R98 -/

/-- The opcode byte of the map (R99). -/
def Opcode.byte : Opcode → BitVec 8
  | .nop => 0x00
  | .aeadEnc => 0x01
  | .aeadDec => 0x02
  | .clear => 0x03
  | .init => 0x10
  | .absorb => 0x11
  | .squeeze => 0x12
  | .enc => 0x13
  | .dec => 0x14
  | .permute => 0x15
  | .copy => 0x16
  | .verify => 0x17

/-- The mask of R98: 1 in every bit that must equal `pattern`. -/
def Opcode.mask : Opcode → Reg
  | .nop => 0xFFFFFFFF
  | .aeadEnc => 0xFFFFFCFF
  | .aeadDec => 0xFFFFFCFF
  | .clear => 0xFFFFFFFF
  | .init => 0xFFFFE8FF
  | .absorb => 0x00FFE8FF
  | .squeeze => 0xFFFFC8FF
  | .enc => 0xFFFFF0FF
  | .dec => 0xFFFFF0FF
  | .permute => 0xFFF0F8FF
  | .copy => 0xFFFFFBFF
  | .verify => 0xFFFFFCFF

/-- The column `match` of R98. -/
def Opcode.pattern (op : Opcode) : Reg := op.byte.setWidth 32

/-- The opcodes in the order of the table. -/
def Opcode.all : List Opcode :=
  [.nop, .aeadEnc, .aeadDec, .clear, .init, .absorb, .squeeze, .enc, .dec, .permute, .copy, .verify]

/-- The opcode an OP value names, if it is in the map of R99. -/
def Opcode.ofByte (b : BitVec 8) : Option Opcode := Opcode.all.find? fun op => op.byte == b

/-! ## Decode -/

/-- Why a word is illegal: the five bullets of R241. Each raises ILLEGAL_COMMAND. -/
inductive Illegal where
  /-- OP is not in the opcode map. -/
  | unknownOpcode
  /-- A bit that the row's mask requires to be 0 is 1. -/
  | forbiddenBit
  /-- SCH is 2 or 3. -/
  | reservedScheme
  /-- SQUEEZE with X = 3. -/
  | reservedDestination
  /-- PERMUTE with RND from 13 to 15. -/
  | tooManyRounds
deriving DecidableEq, Repr

/-- The scheme SCH names (R92). -/
def schemeOf (sch : BitVec 2) : Option Scheme :=
  if sch = 0 then some .elephant else if sch = 1 then some .isap else none

/-- The bank BANK names (R93). -/
def bankOf (bank : Bool) : BankSel := if bank then .b else .a

/-- The source SRC names (R95). -/
def sourceOf (src : Bool) : AbsorbSource := if src then .obuf else .ibuf

/-- The destination DSEL names (R95). -/
def destOf (x : BitVec 2) : Option SqueezeDest :=
  if x = 0 then some .obuf else if x = 1 then some .tagout else if x = 2 then some .texp else none

/-- Continue with the scheme of `w`, or reject the word (R92). -/
def withScheme (w : Reg) (k : Scheme → Except Illegal Instr) : Except Illegal Instr :=
  match schemeOf (fieldSch w) with
  | some s => k s
  | none => .error .reservedScheme

/-- The field values of a word whose fixed bits are right, with the extra legality of R98. -/
def decodeFields (op : Opcode) (w : Reg) : Except Illegal Instr :=
  match op with
  | .nop => .ok .nop
  | .aeadEnc => withScheme w fun s => .ok (.aeadEnc s)
  | .aeadDec => withScheme w fun s => .ok (.aeadDec s)
  | .clear => .ok .clear
  | .init => withScheme w fun s => .ok (.init s (bankOf (fieldBank w)) ((fieldX w).getLsbD 0))
  | .absorb => withScheme w fun s =>
      .ok (.absorb s (bankOf (fieldBank w)) (sourceOf ((fieldX w).getLsbD 0)) (fieldDom w))
  | .squeeze => withScheme w fun s =>
      match destOf (fieldX w) with
      | some d => .ok (.squeeze s (bankOf (fieldBank w)) d)
      | none => .error .reservedDestination
  | .enc => withScheme w fun s => .ok (.enc s (bankOf (fieldBank w)) (fieldLs w))
  | .dec => withScheme w fun s => .ok (.dec s (bankOf (fieldBank w)) (fieldLs w))
  | .permute => withScheme w fun s =>
      if (fieldRnd w).toNat ≤ 12 then .ok (.permute s (bankOf (fieldBank w)) (fieldRnd w))
      else .error .tooManyRounds
  | .copy => .ok (.copy (bankOf (fieldBank w)))
  | .verify => withScheme w fun s => .ok (.verify s)

/-- Decode of R100: total on every 32-bit word. -/
def decode (w : Reg) : Except Illegal Instr :=
  match Opcode.ofByte (fieldOp w) with
  | none => .error .unknownOpcode
  | some op => if w &&& op.mask = op.pattern then decodeFields op w else .error .forbiddenBit

/-! ## Encode -/

/-- SCH of a scheme (R92). -/
def Scheme.bits : Scheme → Reg
  | .elephant => 0
  | .isap => 1

/-- BANK of a bank (R93). -/
def BankSel.bits : BankSel → Reg
  | .a => 0
  | .b => 1

/-- SRC of a source (R95). -/
def AbsorbSource.bits : AbsorbSource → Reg
  | .ibuf => 0
  | .obuf => 1

/-- DSEL of a destination (R95). -/
def SqueezeDest.bits : SqueezeDest → Reg
  | .obuf => 0
  | .tagout => 1
  | .texp => 2

/-- A one-bit field (SFX, LS). -/
def flagBits (b : Bool) : Reg := if b then 1 else 0

/-- The word each form assembles to (R103). -/
def encode : Instr → Reg
  | .nop => 0x00
  | .aeadEnc s => 0x01 ||| s.bits <<< 8
  | .aeadDec s => 0x02 ||| s.bits <<< 8
  | .clear => 0x03
  | .init s bank sfx => 0x10 ||| s.bits <<< 8 ||| bank.bits <<< 10 ||| flagBits sfx <<< 12
  | .absorb s bank src dom =>
      0x11 ||| s.bits <<< 8 ||| bank.bits <<< 10 ||| src.bits <<< 12 ||| dom.setWidth 32 <<< 24
  | .squeeze s bank dest => 0x12 ||| s.bits <<< 8 ||| bank.bits <<< 10 ||| dest.bits <<< 12
  | .enc s bank ls => 0x13 ||| s.bits <<< 8 ||| bank.bits <<< 10 ||| flagBits ls <<< 11
  | .dec s bank ls => 0x14 ||| s.bits <<< 8 ||| bank.bits <<< 10 ||| flagBits ls <<< 11
  | .permute s bank rnd => 0x15 ||| s.bits <<< 8 ||| bank.bits <<< 10 ||| rnd.setWidth 32 <<< 16
  | .copy dst => 0x16 ||| dst.bits <<< 10
  | .verify s => 0x17 ||| s.bits <<< 8

/-- The instruction the decoder reads from a word of the opcode table: every row is one 32-bit command word (R90),
and the bits above `nbits` are 0. -/
def decodeTableWord (nbits w : Nat) : Option Instr :=
  match decode (BitVec.ofNat 32 (w % 2 ^ nbits)) with
  | .ok i => some i
  | .error _ => none

/-! ## Assembler spelling of R103 -/

/-- `<s>` of R103. -/
def Scheme.letter : Scheme → String
  | .elephant => "E"
  | .isap => "I"

/-- `<bank>` of R103. -/
def BankSel.letter : BankSel → String
  | .a => "A"
  | .b => "B"

/-- The two hexadecimal digits of a byte, as `dom=<byte>` is written in R103 and R105. -/
def hexByte (b : Byte) : String :=
  "0x" ++ String.ofList [Nat.digitChar (b.toNat / 16), Nat.digitChar (b.toNat % 16)]

/-- The mnemonic syntax of R103. -/
def Instr.spelling : Instr → String
  | .nop => "NOP"
  | .clear => "CLEAR"
  | .aeadEnc s => "AEAD_ENC." ++ s.letter
  | .aeadDec s => "AEAD_DEC." ++ s.letter
  | .init s bank sfx => "INIT." ++ s.letter ++ " " ++ bank.letter ++ if sfx then ", SFX" else ""
  | .absorb s bank src dom =>
      "ABSORB." ++ s.letter ++ " " ++ bank.letter ++ ", dom=" ++ hexByte dom ++
        match src with
        | .ibuf => ""
        | .obuf => ", src=OBUF"
  | .squeeze s bank dest =>
      "SQUEEZE." ++ s.letter ++ " " ++ bank.letter ++ " -> " ++
        match dest with
        | .obuf => "OBUF"
        | .tagout => "TAGOUT"
        | .texp => "TEXP"
  | .enc s bank ls => "ENC." ++ s.letter ++ " " ++ bank.letter ++ if ls then ", LS" else ""
  | .dec s bank ls => "DEC." ++ s.letter ++ " " ++ bank.letter ++ if ls then ", LS" else ""
  | .permute s bank rnd => "PERMUTE." ++ s.letter ++ " " ++ bank.letter ++ ", " ++ rnd.toNat.repr
  | .copy dst => "COPY " ++ dst.letter
  | .verify s => "VERIFY." ++ s.letter

end Sys2Proof
end

