-- ==== Sys2Proof/Config.lean ====
section
/-!
DEFINITION. What is fixed at synthesis (spec/00_scope.md R6, spec/10_state.md R41). `Params` holds the parameters
of R6; every operation of the machine takes one as an argument. `Config.params` is the one the machine of this
package is built with: the values the spec leaves OPEN are opaque constants, so nothing can be proved of them
beyond their type; the others stand at the defaults R6 gives.
-/

namespace Sys2Proof

/-- RC_START_MODE (R6, R37, R124). -/
inductive RcStartMode where
  | first
  | last
deriving DecidableEq, Repr, Inhabited

/-- PI_RHO_VARIANT (R6, R37, R130): gather or scatter, rotate by destination or by source. -/
inductive PiRhoVariant where
  | gd
  | gs
  | ss
  | sd
deriving DecidableEq, Repr, Inhabited

/-- PARTIAL_ALIGN (R6, R37, R160). -/
inductive PartialAlign where
  | msb
  | lsb
deriving DecidableEq, Repr, Inhabited

/-- The implementation parameters of R6. -/
structure Params where
  /-- AD_DOMAIN_E: any byte. -/
  adDomainE : Byte
  /-- TAG_DOMAIN_E: any byte. -/
  tagDomainE : Byte
  /-- AD_DOMAIN_I: any byte. -/
  adDomainI : Byte
  /-- TAG_DOMAIN_I: any byte. -/
  tagDomainI : Byte
  /-- ELEPHANT_RED_ROUNDS: 1..12. -/
  elephantRedRounds : Nat
  /-- RC_START_MODE. -/
  rcStartMode : RcStartMode
  /-- PI_RHO_VARIANT. -/
  piRhoVariant : PiRhoVariant
  /-- PARTIAL_ALIGN. -/
  partialAlign : PartialAlign
  /-- BUF_BYTES: a multiple of 8, 8..4096. -/
  bufBytes : Nat
  /-- BASE: the platform address of the window, 16 KiB aligned. -/
  base : Nat
deriving DecidableEq, Repr, Inhabited

/-- The legal values of R6's table. -/
abbrev Params.Legal (c : Params) : Prop :=
  1 ≤ c.elephantRedRounds ∧ c.elephantRedRounds ≤ 12 ∧
  8 ∣ c.bufBytes ∧ 8 ≤ c.bufBytes ∧ c.bufBytes ≤ 4096 ∧ 0x4000 ∣ c.base

/-- AD_DOMAIN_E: OPEN in the spec (R6, 92_eei_decisions.md D5). Log 1. -/
opaque Config.adDomainE : Byte

/-- TAG_DOMAIN_E: OPEN in the spec (R6, D5). Log 1. -/
opaque Config.tagDomainE : Byte

/-- AD_DOMAIN_I: OPEN in the spec (R6, D5). Log 1. -/
opaque Config.adDomainI : Byte

/-- TAG_DOMAIN_I: OPEN in the spec (R6, D5). Log 1. -/
opaque Config.tagDomainI : Byte

/-- Which 16 KiB window of the platform the block has: BASE is OPEN (R6, D3). Log 3. -/
opaque Config.baseWindow : Nat

/-- The parameters of this machine: OPEN values opaque, the others at R6's defaults (logs 1, 2, 3). -/
def Config.params : Params where
  adDomainE := Config.adDomainE
  tagDomainE := Config.tagDomainE
  adDomainI := Config.adDomainI
  tagDomainI := Config.tagDomainI
  elephantRedRounds := 12
  rcStartMode := .first
  piRhoVariant := .gd
  partialAlign := .msb
  bufBytes := 2048
  base := 0x4000 * Config.baseWindow

/-- Everything a command's latency may depend on by R277: the opcode with its SCH, X and RND fields, MLEN and ALEN
where the opcode uses them, the pre-check outcome, and the synthesis parameters. -/
structure LatencyKey where
  op : BitVec 8
  sch : BitVec 2
  x : BitVec 2
  rnd : BitVec 4
  mlen : Option (BitVec 16)
  alen : Option (BitVec 16)
  /-- The code of the pre-check that failed, 0 when all passed (R245). -/
  preCheck : BitVec 4
  params : Params
deriving DecidableEq, Repr, Inhabited

/-- The number of cycles from acceptance to completion: any value, as a function of what R277 allows only
(R277, R278, 93_implementation_defined.md I14). Log 12. -/
opaque Config.commandCycles : LatencyKey → Nat

/-- The number of cycles of the clearing period: a function of BUF_BYTES only (R277). Log 12. -/
opaque Config.clearingCycles : Nat → Nat

end Sys2Proof
end

