-- ==== Sys2Proof/Machine/State.lean ====
section
/-!
DEFINITION. The state of the block as plain data (spec/10_state.md), the two reason types of a step, and the state
right after reset (R42, R271). Constants and parameters are not state (R41). STATUS.BUSY and `irq` have no storage
of their own (R39, R40): `Machine/Flags.lean` computes them (log 16).
-/

namespace Sys2Proof.Machine

/-- A state bank: 25 words of 64 bits (R20); word `i` is lane `(i mod 5, i div 5)` (R21). -/
abbrev Bank := Vector Word 25

/-- A 16-byte register: KEY, NONCE, TAGIN, TAGOUT, TEXP (R22-R26). -/
abbrev ByteReg := Vector Byte 16

/-- A byte buffer (R38) as the list of its nonzero bytes, offsets strictly rising (`Memory.wf`). -/
abbrev Memory := List Host.Cell

/-- What an unlisted byte of a buffer reads as: the reset content of R42, zero. Log 11. -/
def Memory.unlisted : Byte := 0

/-- The canonical form of a buffer: offsets strictly rising, no byte listed that equals the unlisted value. -/
abbrev Memory.wf (m : Memory) : Prop :=
  m.Pairwise (fun c d => c.1 < d.1) ∧ ∀ c ∈ m, c.2 ≠ Memory.unlisted

/-- The sequencing state of the engine (R39). -/
inductive Phase where
  /-- No command in progress. -/
  | idle
  /-- From the acceptance of a command until its completion. -/
  | run
  /-- The clearing period after a reset. -/
  | clearReset
deriving DecidableEq, Repr, Inhabited

/-- STATUS.ERRCODE (R240); codes 5..15 are never produced, so they have no name (log 20). -/
inductive ErrorCode where
  | none
  | invalidParameter
  | authenticationFailure
  | malformedInput
  | illegalCommand
deriving DecidableEq, Repr, Inhabited

/-- The width of a host access (R61). -/
inductive AccessWidth where
  | byte
  | half
  | word
deriving DecidableEq, Repr, Inhabited

/-- What happens next at the block's boundary: a host access at an offset of the window (R60), the reset input
(R270), or a turn of the engine (R72, 93_implementation_defined.md I15). Log 4. -/
inductive PortEvent where
  | read (width : AccessWidth) (off : BitVec 14)
  | write (width : AccessWidth) (off : BitVec 14) (value : Reg)
  | rst
  | engine
deriving DecidableEq, Repr, Inhabited

/-- What the port answers to a host access (R61, R70). -/
inductive PortResponse where
  /-- A supported read, with the value it returns. -/
  | readData (value : Reg)
  /-- A supported write. -/
  | writeDone
  /-- A refused access: the bus's error response (R61). Log 6. -/
  | busError
deriving DecidableEq, Repr, Inhabited

/-- Reasons for the machine to stop with a fault. There is none: the block has no trap and defines no behaviour
that stops it (R101, R250, R258), so no step raises one. Log 17. -/
inductive Fault where
deriving DecidableEq, Repr

/-- Reasons for a step to be refused. -/
inductive Refusal where
  /-- An instruction without a meaning in the model, by its mnemonic. No arm of `exec` raises it: every command of
  the opcode table has its meaning. Safe: a refusal claims nothing of the hardware. -/
  | notModelled (mnemonic : String)
deriving DecidableEq, Repr

/-- The state of the block, and the two fields of the model that stand for its boundary. -/
structure State where
  /-- Bank A (R20). -/
  bankA : Bank
  /-- Bank B (R20). -/
  bankB : Bank
  /-- KEY (R22). -/
  key : ByteReg
  /-- NONCE (R23). -/
  nonce : ByteReg
  /-- TAGIN (R24). -/
  tagin : ByteReg
  /-- TAGOUT (R25). -/
  tagout : ByteReg
  /-- TEXP (R26): no host access. -/
  texp : ByteReg
  /-- LENS.KEYLEN (R27). -/
  lensKey : BitVec 5
  /-- LENS.NONCELEN (R27). -/
  lensNonce : BitVec 5
  /-- LENS.TAGLEN (R27). -/
  lensTag : BitVec 5
  /-- AOFF (R28). -/
  aoff : BitVec 16
  /-- ALEN (R28). -/
  alen : BitVec 16
  /-- MOFF (R28). -/
  moff : BitVec 16
  /-- MLEN (R28). -/
  mlen : BitVec 16
  /-- DOFF (R28). -/
  doff : BitVec 16
  /-- CTRL.IRQ_EN (R29). -/
  irqEn : Bool
  /-- STATUS.DONE (R30). -/
  done : Bool
  /-- STATUS.ERR (R30). -/
  err : Bool
  /-- STATUS.AUTH_OK (R30). -/
  authOk : Bool
  /-- STATUS.OUT_LOCK (R30, R207). -/
  outLock : Bool
  /-- STATUS.OVR (R30). -/
  ovr : Bool
  /-- STATUS.ERRCODE (R30, R240). -/
  errcode : ErrorCode
  /-- ERRCMD (R32). -/
  errcmd : Reg
  /-- The command latch (R31): no host access. -/
  cmd : Reg
  /-- `phase` (R39). -/
  phase : Phase
  /-- IBUF (R38). -/
  ibuf : Memory
  /-- OBUF (R38). -/
  obuf : Memory
  /-- The model's own: the port events still to arrive, first one first (log 4). -/
  port : List PortEvent
  /-- The model's own: the answer to the last host access (log 5). -/
  response : Option PortResponse
deriving DecidableEq, Repr

/-- A bank of 25 zero words (R42). -/
def Bank.zero : Bank := Vector.replicate 25 0

/-- A register of 16 zero bytes (R42). -/
def ByteReg.zero : ByteReg := Vector.replicate 16 0

/-- The state right after reset (R42, R271): every element 0, `phase` CLEAR_RESET, so BUSY = 1 (R272). The two
fields of the model are empty (logs 4, 5). -/
def State.reset : State where
  bankA := Bank.zero
  bankB := Bank.zero
  key := ByteReg.zero
  nonce := ByteReg.zero
  tagin := ByteReg.zero
  tagout := ByteReg.zero
  texp := ByteReg.zero
  lensKey := 0
  lensNonce := 0
  lensTag := 0
  aoff := 0
  alen := 0
  moff := 0
  mlen := 0
  doff := 0
  irqEn := false
  done := false
  err := false
  authOk := false
  outLock := false
  ovr := false
  errcode := .none
  errcmd := 0
  cmd := 0
  phase := .clearReset
  ibuf := []
  obuf := []
  port := []
  response := none

end Sys2Proof.Machine
end

