-- ==== Sys2Proof/Machine/Codec.lean ====
section
/-!
DEFINITION. Bytes and words: the StateCodec (spec/40_permutation.md R120, R121), the big-endian packing of 32-bit
registers and buffer words (spec/20_memory.md R64, R65), and lane access of a bank (spec/10_state.md R20, R21).
-/

namespace Sys2Proof.Machine

/-! ## StateCodec -/

/-- `wbytes(w)[k]`: bits `63-8k : 56-8k` of `w` (R121). -/
def byteAt (w : Word) (k : Nat) : Byte := w.extractLsb' (56 - 8 * k) 8

/-- `wbytes(w)`: the 8-byte image of a word, first byte most significant (R121). -/
def wbytes (w : Word) : List Byte := (List.range 8).map (byteAt w)

/-- The word whose image has byte `f k` at position `k`: the sum of R120 (the eight terms share no bit). -/
def packWord (f : Nat → Byte) : Word :=
  ((f 0).setWidth 64 <<< 56) ||| ((f 1).setWidth 64 <<< 48) ||| ((f 2).setWidth 64 <<< 40) |||
  ((f 3).setWidth 64 <<< 32) ||| ((f 4).setWidth 64 <<< 24) ||| ((f 5).setWidth 64 <<< 16) |||
  ((f 6).setWidth 64 <<< 8) ||| (f 7).setWidth 64

/-- Word `j` of `words(b, n)`, the string zero-padded (R120). -/
def wordOf (b : List Byte) (j : Nat) : Word := packWord fun k => b.getD (8 * j + k) 0

/-- `words(b, n)` (R120), for `len(b) <= 8n`. -/
def words (b : List Byte) (n : Nat) : List Word := (List.range n).map (wordOf b)

/-! ## 32-bit registers and buffer words -/

/-- Byte `j` of a 32-bit value: `v[31-8j : 24-8j]` (R64). -/
def regByte (v : Reg) (j : Nat) : Byte := v.extractLsb' (24 - 8 * j) 8

/-- Four bytes as a 32-bit value, the first in bits 31:24 (R64). -/
def packReg (f : Nat → Byte) : Reg :=
  ((f 0).setWidth 32 <<< 24) ||| ((f 1).setWidth 32 <<< 16) ||| ((f 2).setWidth 32 <<< 8) ||| (f 3).setWidth 32

/-! ## 16-byte registers -/

/-- The register with byte `f i` at position `i`. -/
def ByteReg.tabulate (f : Nat → Byte) : ByteReg :=
  #v[f 0, f 1, f 2, f 3, f 4, f 5, f 6, f 7, f 8, f 9, f 10, f 11, f 12, f 13, f 14, f 15]

/-- Byte `i` of a register. -/
def ByteReg.byte (r : ByteReg) (i : Nat) : Byte := r.toList.getD i 0

/-- A byte string at the start of a register and zero after it (R25, 92_eei_decisions.md D31). -/
def ByteReg.ofBytes (b : List Byte) : ByteReg := ByteReg.tabulate fun i => b.getD i 0

/-- A read of `Pk`: bytes `4k .. 4k+3` packed (R64). -/
def ByteReg.readWord (r : ByteReg) (k : Nat) : Reg := packReg fun j => r.byte (4 * k + j)

/-- A write of `v` to `Pk` (R64). -/
def ByteReg.writeWord (r : ByteReg) (k : Nat) (v : Reg) : ByteReg :=
  ByteReg.tabulate fun i => if i / 4 = k then regByte v (i % 4) else r.byte i

/-! ## Banks -/

/-- The bank with word `f i` at position `i`. -/
def Bank.tabulate (f : Nat → Word) : Bank :=
  #v[f 0, f 1, f 2, f 3, f 4, f 5, f 6, f 7, f 8, f 9, f 10, f 11, f 12, f 13, f 14, f 15, f 16, f 17, f 18, f 19,
    f 20, f 21, f 22, f 23, f 24]

/-- Word `i` of a bank (R20). -/
def Bank.word (a : Bank) (i : Nat) : Word := a.toList.getD i 0

/-- Word `0` replaced by its XOR with `x`: the only way data enters a bank after INIT (R160). -/
def Bank.xorWord0 (a : Bank) (x : Word) : Bank := a.set 0 (a.word 0 ^^^ x)

/-- `S[0..24] <- words(b, 25)` (R163). -/
def Bank.load (b : List Byte) : Bank := Bank.tabulate (wordOf b)

end Sys2Proof.Machine
end

