-- ==== Sys2Proof/Machine/Permutation.lean ====
section
/-!
DEFINITION. The permutation engines as the source writes them (spec/40_permutation.md R122-R135, 90_conflicts.md C2,
C3): the ISAP permutation on words 0..4 of a bank, the Elephant permutation on its 25 lanes, and their dispatch.
-/

namespace Sys2Proof.Machine

/-- `rotl(x, n)` for 0 <= n <= 63 (R8): the bits shifted out on the left come back on the right. -/
def rotl (x : Word) (n : Nat) : Word := (x <<< n) ||| (x >>> (64 - n))

/-! ## Round constants -/

/-- RC_I (R122). -/
def rcIsap : List Word := [0xf0, 0xe1, 0xd2, 0xc3, 0xb4, 0xa5, 0x96, 0x87, 0x78, 0x69, 0x5a, 0x4b]

/-- RC_E (R123). -/
def rcElephant : List Word :=
  [0x0000000000000001, 0x0000000000008082, 0x800000000000808A, 0x8000000080008000,
   0x000000000000808B, 0x0000000080000001, 0x8000000080008081, 0x8000000000008009,
   0x000000000000008A, 0x0000000000000088, 0x0000000080008009, 0x000000008000000A]

/-- `rcIndex(r, n)` (R124). -/
def rcIndex (c : Params) (r n : Nat) : Nat :=
  match c.rcStartMode with
  | .first => r
  | .last => 12 - n + r

/-! ## ISAP permutation -/

/-- Step (a): `s2 <- s2 ^ RC` (R125). -/
def isapStepA (k : Word) (s : Bank) : Bank := s.set 2 (s.word 2 ^^^ k)

/-- `t[i] = s[i] ^ s[(i+4) mod 5]` of R126. -/
def isapT (s : Bank) (i : Nat) : Word := s.word i ^^^ s.word ((i + 4) % 5)

/-- Step (b): `s[i] <- s[i] ^ t[(i+1) mod 5]` for i = 0..4 (R126). -/
def isapStepB (s : Bank) : Bank :=
  Bank.tabulate fun i => if i < 5 then s.word i ^^^ isapT s ((i + 1) % 5) else s.word i

/-- The two rotation amounts of word `i` in step (c) (R127). -/
def isapRotations : List (Nat × Nat) := [(19, 28), (61, 39), (1, 6), (10, 17), (7, 41)]

/-- The new value of word `i` in step (c) (R127). -/
def isapDiffuse (i : Nat) (x : Word) : Word :=
  let r := isapRotations.getD i (0, 0)
  rotl x r.1 ^^^ rotl x r.2

/-- Step (c): words 0..4 diffused, each by itself (R127). -/
def isapStepC (s : Bank) : Bank :=
  Bank.tabulate fun i => if i < 5 then isapDiffuse i (s.word i) else s.word i

/-- One ISAP round with constant `k`. -/
def isapRound (k : Word) (s : Bank) : Bank := isapStepC (isapStepB (isapStepA k s))

/-- `isapPerm(S, n)` (R128). Past its last entry the constant table answers 0 (log 18). -/
def isapPerm (c : Params) (n : Nat) (s : Bank) : Bank :=
  (List.range n).foldl (fun s r => isapRound (rcIsap.getD (rcIndex c r n) 0) s) s

/-! ## Elephant permutation -/

/-- `idx(x, y) = x + 5y` (R21, R130). -/
def laneIdx (x y : Nat) : Nat := x + 5 * y

/-- Column parity `C[x]` of R129. -/
def thetaC (a : Bank) (x : Nat) : Word :=
  a.word x ^^^ a.word (x + 5) ^^^ a.word (x + 10) ^^^ a.word (x + 15) ^^^ a.word (x + 20)

/-- `D[x] = C[(x+4) mod 5] ^ rotl(C[(x+1) mod 5], 1)` (R129). -/
def thetaD (a : Bank) (x : Nat) : Word := thetaC a ((x + 4) % 5) ^^^ rotl (thetaC a ((x + 1) % 5)) 1

/-- θ (R129). -/
def theta (a : Bank) : Bank := Bank.tabulate fun i => a.word i ^^^ thetaD a (i % 5)

/-- The lane index `idx(src(x, y))` with `src(x, y) = ((x+3y) mod 5, x)` (R130). -/
def piSource (x y : Nat) : Nat := laneIdx ((x + 3 * y) % 5) x

/-- `rot(x, y) = (x + 2y) mod 64` (R130). -/
def rhoAmount (x y : Nat) : Nat := (x + 2 * y) % 64

/-- The lane index `j` with `idx(src(j)) = i`: the lane that a scatter sends to position `i` (R130). `src(x, y) =
(X, Y)` gives `x = Y` and `3y = X - Y`, so `y = 2(X - Y) mod 5` (log 19). -/
def piSourceInv (i : Nat) : Nat := laneIdx (i / 5) ((2 * (i % 5 + 5 - i / 5)) % 5)

/-- ρ/π under the variant `v` (R130): lane `i` of the new grid. -/
def rhoPiLane (v : PiRhoVariant) (a : Bank) (i : Nat) : Word :=
  match v with
  | .gd => rotl (a.word (piSource (i % 5) (i / 5))) (rhoAmount (i % 5) (i / 5))
  | .gs =>
      let j := piSource (i % 5) (i / 5)
      rotl (a.word j) (rhoAmount (j % 5) (j / 5))
  | .ss =>
      let j := piSourceInv i
      rotl (a.word j) (rhoAmount (j % 5) (j / 5))
  | .sd => rotl (a.word (piSourceInv i)) (rhoAmount (i % 5) (i / 5))

/-- ρ/π (R130). -/
def rhoPi (v : PiRhoVariant) (a : Bank) : Bank := Bank.tabulate (rhoPiLane v a)

/-- χ (R131): `t[x] ^ ((~t[(x+1) mod 5]) & t[(x+2) mod 5])` in every row. -/
def chi (a : Bank) : Bank :=
  Bank.tabulate fun i =>
    let x := i % 5
    let y := i / 5
    a.word (laneIdx x y) ^^^ (~~~(a.word (laneIdx ((x + 1) % 5) y)) &&& a.word (laneIdx ((x + 2) % 5) y))

/-- ι (R132): the constant into lane 0. -/
def iota (k : Word) (a : Bank) : Bank := a.set 0 (a.word 0 ^^^ k)

/-- One Elephant round with constant `k`. -/
def elephantRound (v : PiRhoVariant) (k : Word) (a : Bank) : Bank := iota k (chi (rhoPi v (theta a)))

/-- `elephantPerm(S, n)` (R133). Past its last entry the constant table answers 0 (log 18). -/
def elephantPerm (c : Params) (n : Nat) (a : Bank) : Bank :=
  (List.range n).foldl (fun a r => elephantRound c.piRhoVariant (rcElephant.getD (rcIndex c r n) 0) a) a

/-! ## Dispatch and round counts -/

/-- `Perm(s, S, n)` (R134). -/
def perm (c : Params) (s : Scheme) (n : Nat) (a : Bank) : Bank :=
  match s with
  | .elephant => elephantPerm c n a
  | .isap => isapPerm c n a

/-- `fullRounds(s)` (R3, R135): 12 for both schemes. -/
def fullRounds : Scheme → Nat
  | .elephant => 12
  | .isap => 12

/-- `reducedRounds(s)` (R3, R135). -/
def reducedRounds (c : Params) : Scheme → Nat
  | .elephant => c.elephantRedRounds
  | .isap => 6

/-- The permutation after every absorbed or duplexed block and between squeeze reads (R135). -/
def permReduced (c : Params) (s : Scheme) (a : Bank) : Bank := perm c s (reducedRounds c s) a

end Sys2Proof.Machine
end

