-- ==== Sys2Proof/Machine/Duplex.lean ====
section
/-!
DEFINITION. The duplex-sponge functions (spec/41_duplex.md R160-R167), the tag strategies and the two whole AEAD
computations as functions of their arguments (spec/42_aead_verify.md R200-R205). Byte strings are lists of bytes.
-/

namespace Sys2Proof.Machine

/-! ## Scheme constants of R3 -/

/-- `keyLen(s)`. -/
def keyLen : Scheme → Nat
  | .elephant => 16
  | .isap => 16

/-- `nonceLen(s)`. -/
def nonceLen : Scheme → Nat
  | .elephant => 8
  | .isap => 16

/-- `tagLen(s)`. -/
def tagLen : Scheme → Nat
  | .elephant => 8
  | .isap => 16

/-- `adDomain(s)`. -/
def adDomain (c : Params) : Scheme → Byte
  | .elephant => c.adDomainE
  | .isap => c.adDomainI

/-- `tagDomain(s)`. -/
def tagDomain (c : Params) : Scheme → Byte
  | .elephant => c.tagDomainE
  | .isap => c.tagDomainI

/-! ## The rate window -/

/-- `P(n)[j]`: the window position of chunk byte `j` (R160). -/
def windowPos (al : PartialAlign) (n j : Nat) : Nat :=
  match al with
  | .msb => j
  | .lsb => 8 - n + j

/-- A byte at a window position of the rate word (R160, R161). -/
def atWindow (b : Byte) (pos : Nat) : Word := b.setWidth 64 <<< (56 - 8 * pos)

/-- `place(blk)` (R161): the chunk as a word (the terms of the sum share no bit). -/
def place (al : PartialAlign) (blk : List Byte) : Word :=
  (List.range blk.length).foldl
    (fun w j => w ||| atWindow (blk.getD j 0) (windowPos al blk.length j)) 0

/-- `ks(S, n)` (R161): `n` keystream or squeeze bytes of word 0. -/
def keystream (al : PartialAlign) (s : Bank) (n : Nat) : List Byte :=
  (List.range n).map fun j => byteAt (s.word 0) (windowPos al n j)

/-- `dmark(d, n)` (R161): the domain byte at the chunk's last position. -/
def dmark (al : PartialAlign) (d : Byte) (n : Nat) : Word := atWindow d (windowPos al n (n - 1))

/-- Bytewise XOR of two strings of one length (R166). -/
def xorBytes (x y : List Byte) : List Byte := List.zipWith (· ^^^ ·) x y

/-! ## Blocks -/

/-- `nb(L) = ceil(L / 8)` (R9). -/
def nb (len : Nat) : Nat := (len + 7) / 8

/-- The block split (R162): `blk_k = data[8k .. min(8k+8, L))`. -/
def blocks (data : List Byte) : List (List Byte) :=
  (List.range (nb data.length)).map fun k => (data.drop (8 * k)).take 8

/-! ## Duplex functions -/

/-- `initialize(s, key, nonce, sfx)` (R163). -/
def initBank (c : Params) (s : Scheme) (key nonce : List Byte) (sfx : Bool) : Bank :=
  perm c s (fullRounds s) (Bank.load (key ++ nonce ++ if sfx then [0x02] else []))

/-- The loop of `absorb` over the blocks (R164): the domain mark goes into the last one. -/
def absorbBlocks (c : Params) (s : Scheme) (d : Byte) : List (List Byte) → Bank → Bank
  | [], a => a
  | blk :: rest, a =>
      let a := a.xorWord0 (place c.partialAlign blk)
      let a := if rest.isEmpty then a.xorWord0 (dmark c.partialAlign d blk.length) else a
      absorbBlocks c s d rest (permReduced c s a)

/-- `absorb(s, S, data, d)` (R164); an empty input changes nothing. -/
def absorb (c : Params) (s : Scheme) (a : Bank) (data : List Byte) (d : Byte) : Bank :=
  absorbBlocks c s d (blocks data) a

/-- The reads of `squeeze` (R165): `fuel` is the number of reads left, `len` the number of bytes left. -/
def squeezeReads (c : Params) (s : Scheme) : Nat → Nat → Bank → Bank × List Byte
  | 0, _, a => (a, [])
  | fuel + 1, len, a =>
      let out := keystream c.partialAlign a (min 8 len)
      if len ≤ 8 then (a, out)
      else
        let r := squeezeReads c s fuel (len - 8) (permReduced c s a)
        (r.1, out ++ r.2)

/-- `squeeze(s, S, L)` (R165). -/
def squeeze (c : Params) (s : Scheme) (a : Bank) (len : Nat) : Bank × List Byte :=
  squeezeReads c s (nb len) len a

/-- What `duplexEnc` and `duplexDec` return: the bank `S`, the bank `S2`, and the output bytes (R166). -/
structure DuplexResult where
  bank : Bank
  other : Bank
  out : List Byte
deriving DecidableEq, Repr

/-- A feedback word into a bank and the reduced permutation after it (R166). -/
def feed (c : Params) (s : Scheme) (fb : Word) (a : Bank) : Bank := permReduced c s (a.xorWord0 fb)

/-- The loop of `duplexEnc` over the blocks (R166): the plaintext block is fed back. -/
def encBlocks (c : Params) (s : Scheme) (lock : Bool) : List (List Byte) → Bank → Bank → DuplexResult
  | [], a, b => ⟨a, b, []⟩
  | blk :: rest, a, b =>
      let ks := keystream c.partialAlign a blk.length
      let fb := place c.partialAlign blk
      let r := encBlocks c s lock rest (feed c s fb a) (if lock then feed c s fb b else b)
      ⟨r.bank, r.other, xorBytes blk ks ++ r.out⟩

/-- `duplexEnc(s, S, data, lock, S2)` (R166). -/
def duplexEnc (c : Params) (s : Scheme) (a : Bank) (data : List Byte) (lock : Bool) (b : Bank) : DuplexResult :=
  encBlocks c s lock (blocks data) a b

/-- The loop of `duplexDec` over the blocks (R167): the recovered plaintext block is fed back. -/
def decBlocks (c : Params) (s : Scheme) (lock : Bool) : List (List Byte) → Bank → Bank → DuplexResult
  | [], a, b => ⟨a, b, []⟩
  | blk :: rest, a, b =>
      let ks := keystream c.partialAlign a blk.length
      let p := xorBytes blk ks
      let fb := place c.partialAlign p
      let r := decBlocks c s lock rest (feed c s fb a) (if lock then feed c s fb b else b)
      ⟨r.bank, r.other, p ++ r.out⟩

/-- `duplexDec(s, S, data, lock, S2)` (R167). -/
def duplexDec (c : Params) (s : Scheme) (a : Bank) (data : List Byte) (lock : Bool) (b : Bank) : DuplexResult :=
  decBlocks c s lock (blocks data) a b

/-! ## Tag strategies and whole operations -/

/-- Steps 2 and 3 of R201: the bank after initialization and, when AD is present, its absorption. -/
def aeadStart (c : Params) (s : Scheme) (key nonce ad : List Byte) : Bank :=
  let a := initBank c s key nonce false
  if ad.isEmpty then a else absorb c s a ad (adDomain c s)

/-- The ISAP tag strategy `tagI` (R204). -/
def isapTag (c : Params) (key nonce ciphertext : List Byte) : List Byte :=
  let b := initBank c .isap key nonce true
  let b := absorb c .isap b ciphertext (tagDomain c .isap)
  (squeeze c .isap b (tagLen .isap)).2

/-- The Elephant tag of R203: 8 bytes squeezed from the tag state. -/
def elephantTag (c : Params) (tagState : Bank) : List Byte :=
  (squeeze c .elephant tagState (tagLen .elephant)).2

/-- The source's `encrypt` as the pseudocode of R201 computes it: ciphertext and tag. -/
def aeadEncrypt (c : Params) (s : Scheme) (key nonce ad plaintext : List Byte) : List Byte × List Byte :=
  let a := aeadStart c s key nonce ad
  match s with
  | .elephant =>
      let r := duplexEnc c .elephant a plaintext true a
      (r.out, elephantTag c r.other)
  | .isap =>
      let r := duplexEnc c .isap a plaintext false a
      (r.out, isapTag c key nonce r.out)

/-- The source's `decrypt` up to the verify step, as the pseudocode of R202 computes it: plaintext and expected tag. -/
def aeadDecrypt (c : Params) (s : Scheme) (key nonce ad ciphertext : List Byte) : List Byte × List Byte :=
  let a := aeadStart c s key nonce ad
  match s with
  | .elephant =>
      let r := duplexDec c .elephant a ciphertext true a
      (r.out, elephantTag c r.other)
  | .isap =>
      let r := duplexDec c .isap a ciphertext false a
      (r.out, isapTag c key nonce ciphertext)

/-! ## The constant-time comparison -/

/-- The accumulator of `CTEq` after the positions `0 .. len-1`, visited in order with no early exit (R205). -/
def ctDiff (x y : ByteReg) (len : Nat) : Byte :=
  (List.range len).foldl (fun diff i => diff ||| (x.byte i ^^^ y.byte i)) 0

/-- `CTEq(x, y, L)` (R205). -/
def ctEq (x y : ByteReg) (len : Nat) : Bool := ctDiff x y len == 0

end Sys2Proof.Machine
end

