-- ==== Sys2Proof/Machine/Ops.lean ====
section
/-!
DEFINITION. The named operations over buffers, banks and STATUS: the canonical buffer form and the engine-side
primitives MemRead and MemWrite (spec/20_memory.md R69), bank selection (spec/30_encoding.md R93), acceptance
(spec/60_exceptions.md R248), completion and the raising of an error as one operation (R246, R247), and the host's
"return" from an error, the W1C write of STATUS (R250, spec/10_state.md R30).
-/

namespace Sys2Proof.Machine

/-! ## Buffers -/

/-- The byte at offset `a` of a buffer. -/
def Memory.read : Memory → Nat → Byte
  | [], _ => Memory.unlisted
  | (k, v) :: rest, a => if a = k then v else Memory.read rest a

/-- The buffer with byte `b` at offset `a`, in canonical form. -/
def Memory.write : Memory → Nat → Byte → Memory
  | [], a, b => if b = Memory.unlisted then [] else [(a, b)]
  | (k, v) :: rest, a, b =>
      if a < k then if b = Memory.unlisted then (k, v) :: rest else (a, b) :: (k, v) :: rest
      else if a = k then if b = Memory.unlisted then rest else (a, b) :: rest
      else (k, v) :: Memory.write rest a b

/-- `MemRead(buf, off, n)` (R69). -/
def Memory.readBytes (m : Memory) (off n : Nat) : List Byte := (List.range n).map fun j => m.read (off + j)

/-- `MemWrite(buf, off, len(b), b)` (R69): byte `j` of `b` goes to offset `off + j`. -/
def Memory.writeBytes (m : Memory) (off : Nat) : List Byte → Memory
  | [] => m
  | b :: rest => Memory.writeBytes (m.write off b) (off + 1) rest

/-- The buffer with every byte 0 (R206, R208, R271). -/
def Memory.cleared : Memory := []

/-- The 32-bit buffer word at byte offset `off` (R65). -/
def Memory.readReg (m : Memory) (off : Nat) : Reg := packReg fun j => m.read (off + j)

/-- The 32-bit buffer word at byte offset `off` set to `v` (R65). -/
def Memory.writeReg (m : Memory) (off : Nat) (v : Reg) : Memory :=
  m.writeBytes off [regByte v 0, regByte v 1, regByte v 2, regByte v 3]

/-! ## Banks -/

/-- The bank BANK names (R93). -/
def State.bank (s : State) : BankSel → Bank
  | .a => s.bankA
  | .b => s.bankB

/-- The state with the bank BANK names set (R93). -/
def State.setBank (s : State) (sel : BankSel) (v : Bank) : State :=
  match sel with
  | .a => { s with bankA := v }
  | .b => { s with bankB := v }

/-- `A <- 0; B <- 0; texp <- 0` (R201, R208, R210). -/
def State.zeroise (s : State) : State :=
  { s with bankA := Bank.zero, bankB := Bank.zero, texp := ByteReg.zero }

/-! ## Completion, and raising an error -/

/-- Whether a code is an error, `e ≠ 0` (R240, R247). -/
def ErrorCode.isError (e : ErrorCode) : Bool := e != .none

/-- Completion with code `e` (R247): BUSY falls, DONE rises, and for an error ERR, ERRCODE and ERRCMD record it.
Without an error they stay as they are (log 10). -/
def State.complete (s : State) (e : ErrorCode) : State :=
  { s with
    phase := .idle
    done := true
    err := e.isError || s.err
    errcode := if e.isError then e else s.errcode
    errcmd := if e.isError then s.cmd else s.errcmd }

/-- Completion without an error (R247). -/
def State.finish (s : State) : State := s.complete .none

/-- `raise Error(code)` of a pre-check (R9, R246): the command ends with the code and changes nothing else. This is
the block's whole exception entry: no control flow is diverted and no state is saved (R250). -/
def State.raiseError (s : State) (e : ErrorCode) : State := s.complete e

/-- Acceptance of a command word while BUSY = 0 (R248). -/
def State.accept (s : State) (w : Reg) : State :=
  { s with
    cmd := w
    done := false
    err := false
    errcode := .none
    errcmd := 0
    authOk := false
    phase := .run }

/-- The W1C write of STATUS (R30, R250): bit 1 clears DONE; bit 2 clears ERR, ERRCODE and ERRCMD; bit 5 clears OVR. -/
def State.writeStatus (s : State) (v : Reg) : State :=
  { s with
    done := s.done && !v.getLsbD 1
    err := s.err && !v.getLsbD 2
    errcode := if v.getLsbD 2 then .none else s.errcode
    errcmd := if v.getLsbD 2 then 0 else s.errcmd
    ovr := s.ovr && !v.getLsbD 5 }

/-! ## Reset -/

/-- Both resets have this effect (R270, R271): every element of R42 takes its reset value and the clearing period
begins; a running command is abandoned. The events still to arrive are the environment's and stay. -/
def State.resetBlock (s : State) : State := { State.reset with port := s.port }

/-- The end of the clearing period (R272): BUSY falls, DONE is not set. -/
def State.endClearing (s : State) : State := { s with phase := .idle }

end Sys2Proof.Machine
end

