-- ==== Sys2Proof/Machine/Flags.lean ====
section
/-!
DEFINITION. The computed views of the control state: BUSY (spec/10_state.md R39), the words STATUS, CTRL, LENS
(R27, R29, R30), the error codes (spec/60_exceptions.md R240) and the interrupt output (R40, R249).
-/

namespace Sys2Proof.Machine

/-- STATUS.BUSY is 1 exactly when `phase ≠ IDLE` (R39). -/
def State.busy (s : State) : Bool := s.phase != .idle

/-- The interrupt output `irq = CTRL.IRQ_EN & (STATUS.DONE | STATUS.ERR)` (R40, R249). -/
def State.irq (s : State) : Bool := s.irqEn && (s.done || s.err)

/-- The number of an error code (R240). -/
def ErrorCode.code : ErrorCode → BitVec 4
  | .none => 0
  | .invalidParameter => 1
  | .authenticationFailure => 2
  | .malformedInput => 3
  | .illegalCommand => 4

/-- A one-bit field at bit `pos` of a register. -/
def bitAt (b : Bool) (pos : Nat) : Reg := if b then 1 <<< pos else 0

/-- The value STATUS reads (R30). -/
def State.statusWord (s : State) : Reg :=
  bitAt s.busy 0 ||| bitAt s.done 1 ||| bitAt s.err 2 ||| bitAt s.authOk 3 ||| bitAt s.outLock 4 |||
  bitAt s.ovr 5 ||| s.errcode.code.setWidth 32 <<< 8

/-- The value CTRL reads (R29): SRST reads 0. -/
def State.ctrlWord (s : State) : Reg := bitAt s.irqEn 0

/-- The value LENS reads (R27). -/
def State.lensWord (s : State) : Reg :=
  s.lensKey.setWidth 32 ||| s.lensNonce.setWidth 32 <<< 8 ||| s.lensTag.setWidth 32 <<< 16

/-- A write of LENS stores `value & 0x001F1F1F` (R27). -/
def State.writeLens (s : State) (v : Reg) : State :=
  { s with
    lensKey := v.extractLsb' 0 5
    lensNonce := v.extractLsb' 8 5
    lensTag := v.extractLsb' 16 5 }

/-- A write of CTRL (R29): with SRST = 1 the soft reset, and the IRQ_EN bit of that write is discarded. -/
def State.writeCtrl (s : State) (v : Reg) : State :=
  if v.getLsbD 1 then s.resetBlock else { s with irqEn := v.getLsbD 0 }

end Sys2Proof.Machine
end

