-- ==== Sys2Proof/Machine/Operands.lean ====
section
/-!
DEFINITION. The implicit operands of a command (spec/30_encoding.md R102), the region checks and length checks of
each opcode (spec/60_exceptions.md R242, R243), and the order of the pre-checks (R245) with what a failure leaves
(R246).
-/

namespace Sys2Proof.Machine

/-! ## Operands -/

/-- The key, from KEY: `keyLen(s)` is 16 for both schemes (R3, R22). -/
def State.keyBytes (s : State) : List Byte := s.key.toList

/-- `nonce[0 .. nonceLen(s))` (R23, R102). -/
def State.nonceBytes (s : State) (sch : Scheme) : List Byte := s.nonce.toList.take (nonceLen sch)

/-- The AD string of AEAD_ENC and AEAD_DEC: `MemRead(IBUF, AOFF, ALEN)` (R201). -/
def State.adBytes (s : State) : List Byte := s.ibuf.readBytes s.aoff.toNat s.alen.toNat

/-- The message string: `MemRead(IBUF, MOFF, MLEN)` (R171, R201). -/
def State.messageBytes (s : State) : List Byte := s.ibuf.readBytes s.moff.toNat s.mlen.toNat

/-- The input of ABSORB: `MemRead(SRC ? OBUF : IBUF, MOFF, MLEN)` (R169). -/
def State.absorbBytes (s : State) : AbsorbSource → List Byte
  | .ibuf => s.ibuf.readBytes s.moff.toNat s.mlen.toNat
  | .obuf => s.obuf.readBytes s.moff.toNat s.mlen.toNat

/-- `MemWrite(OBUF, DOFF, len(out), out)` (R69). -/
def State.writeOutput (s : State) (out : List Byte) : State :=
  { s with obuf := s.obuf.writeBytes s.doff.toNat out }

/-! ## Regions -/

/-- An offset and a length in a buffer (R28, R243). -/
structure Region where
  off : Nat
  len : Nat
deriving DecidableEq, Repr

/-- A region is malformed when `len > 0` and `off + len > BUF_BYTES` (R243). -/
def Region.malformed (c : Params) (r : Region) : Bool := decide (0 < r.len) && decide (c.bufBytes < r.off + r.len)

/-- (AOFF, ALEN). -/
def State.adRegion (s : State) : Region := ⟨s.aoff.toNat, s.alen.toNat⟩

/-- (MOFF, MLEN). -/
def State.messageRegion (s : State) : Region := ⟨s.moff.toNat, s.mlen.toNat⟩

/-- (DOFF, MLEN). -/
def State.outputRegion (s : State) : Region := ⟨s.doff.toNat, s.mlen.toNat⟩

/-- The regions each opcode checks (R243). -/
def checkedRegions (s : State) : Instr → List Region
  | .nop => []
  | .aeadEnc _ => [s.adRegion, s.messageRegion, s.outputRegion]
  | .aeadDec _ => [s.adRegion, s.messageRegion, s.outputRegion]
  | .clear => []
  | .init _ _ _ => []
  | .absorb _ _ _ _ => [s.messageRegion]
  | .squeeze _ _ .obuf => [s.outputRegion]
  | .squeeze _ _ .tagout => []
  | .squeeze _ _ .texp => []
  | .enc _ _ _ => [s.messageRegion, s.outputRegion]
  | .dec _ _ _ => [s.messageRegion, s.outputRegion]
  | .permute _ _ _ => []
  | .copy _ => []
  | .verify _ => []

/-! ## Lengths -/

/-- KEYLEN = keyLen(s) (R242). -/
def State.keyLenOk (s : State) (sch : Scheme) : Bool := s.lensKey.toNat == keyLen sch

/-- NONCELEN = nonceLen(s) (R242). -/
def State.nonceLenOk (s : State) (sch : Scheme) : Bool := s.lensNonce.toNat == nonceLen sch

/-- TAGLEN = tagLen(s) (R242). -/
def State.tagLenOk (s : State) (sch : Scheme) : Bool := s.lensTag.toNat == tagLen sch

/-- Whether every length field that the opcode checks has its value (R242). -/
def lengthsOk (s : State) : Instr → Bool
  | .nop => true
  | .aeadEnc sch => s.keyLenOk sch && s.nonceLenOk sch
  | .aeadDec sch => s.keyLenOk sch && s.nonceLenOk sch && s.tagLenOk sch
  | .clear => true
  | .init sch _ _ => s.keyLenOk sch && s.nonceLenOk sch
  | .absorb _ _ _ _ => true
  | .squeeze _ _ _ => true
  | .enc _ _ _ => true
  | .dec _ _ _ => true
  | .permute _ _ _ => true
  | .copy _ => true
  | .verify sch => s.tagLenOk sch

/-! ## Pre-checks -/

/-- Steps 1 to 3 of R245 on a command: the first that fails decides the code. A command the encoding does not admit
(PERMUTE with RND > 12) is ILLEGAL_COMMAND (R136); decode never yields one (log 9). -/
def preCheck (c : Params) (i : Instr) (s : State) : ErrorCode :=
  if i.wellFormed = false then .illegalCommand
  else if lengthsOk s i = false then .invalidParameter
  else if (checkedRegions s i).any (Region.malformed c) then .malformedInput
  else .none

/-- The pre-checks of R245 on a command word. -/
def preCheckWord (c : Params) (w : Reg) (s : State) : ErrorCode :=
  match decode w with
  | .error _ => .illegalCommand
  | .ok i => preCheck c i s

/-- An accepted command (R245): a failed pre-check raises its code and changes nothing else (R246), otherwise the
execution, which completes the command itself. -/
def runCommand (c : Params) (i : Instr) (body : State → State) (s : State) : State :=
  match preCheck c i s with
  | .none => body s
  | e => s.raiseError e

end Sys2Proof.Machine
end

