-- ==== Sys2Proof/Machine/AeadCommands.lean ====
section
/-!
DEFINITION. The whole-operation commands AEAD_ENC and AEAD_DEC, and VERIFY (spec/42_aead_verify.md R200-R207,
R210). Each is given for any synthesis parameters, and its `exec` form for this machine's.
-/

namespace Sys2Proof.Machine

/-- AEAD_ENC (R201): ciphertext to OBUF, tag to TAGOUT, both banks and TEXP zero at the end (R210). -/
def aeadEncCommand (c : Params) (sch : Scheme) (s : State) : State :=
  runCommand c (.aeadEnc sch)
    (fun s =>
      let r := aeadEncrypt c sch s.keyBytes (s.nonceBytes sch) s.adBytes s.messageBytes
      State.finish { (s.writeOutput r.1).zeroise with tagout := ByteReg.ofBytes r.2 }) s

/-- Whether the supplied tag is the expected one, and the state of a verify step before completion (R206, R207):
TEXP is used once; a match releases OBUF, a mismatch zeroes it; both end the withholding. -/
def State.verifyStep (s : State) (sch : Scheme) : State × ErrorCode :=
  if ctEq s.texp s.tagin (tagLen sch) then
    ({ s with texp := ByteReg.zero, authOk := true, outLock := false }, .none)
  else
    ({ s with texp := ByteReg.zero, obuf := Memory.cleared, outLock := false }, .authenticationFailure)

/-- The verify step as the end of a command: completion with its code (R244, R247). -/
def State.verifyAndComplete (s : State) (sch : Scheme) : State :=
  let r := s.verifyStep sch
  r.1.complete r.2

/-- AEAD_DEC (R202). TAGOUT is not written. -/
def aeadDecCommand (c : Params) (sch : Scheme) (s : State) : State :=
  runCommand c (.aeadDec sch)
    (fun s =>
      let r := aeadDecrypt c sch s.keyBytes (s.nonceBytes sch) s.adBytes s.messageBytes
      State.verifyAndComplete { (s.writeOutput r.1).zeroise with texp := ByteReg.ofBytes r.2 } sch) s

/-- VERIFY (R206). -/
def verifyCommand (c : Params) (sch : Scheme) (s : State) : State :=
  runCommand c (.verify sch) (fun s => s.verifyAndComplete sch) s

/-- The meaning of AEAD_ENC. -/
def execAeadEnc (sch : Scheme) (s : State) : Host.Outcome State Fault Refusal :=
  .next (aeadEncCommand Config.params sch s)

/-- The meaning of AEAD_DEC. -/
def execAeadDec (sch : Scheme) (s : State) : Host.Outcome State Fault Refusal :=
  .next (aeadDecCommand Config.params sch s)

/-- The meaning of VERIFY. -/
def execVerify (sch : Scheme) (s : State) : Host.Outcome State Fault Refusal :=
  .next (verifyCommand Config.params sch s)

end Sys2Proof.Machine
end

