-- ==== Sys2Proof/Machine/ControlCommands.lean ====
section
/-!
DEFINITION. The control commands NOP and CLEAR (spec/42_aead_verify.md R208, R209) and PERMUTE
(spec/40_permutation.md R136). Each command is given for any synthesis parameters, and its `exec` form for this
machine's.
-/

namespace Sys2Proof.Machine

/-- NOP (R209): no effect beyond acceptance and completion. -/
def nopCommand (c : Params) (s : State) : State := runCommand c .nop State.finish s

/-- What CLEAR writes (R208). NONCE, TAGIN, LENS, the region registers and CTRL are kept. -/
def State.clearSecrets (s : State) : State :=
  { s.zeroise with
    key := ByteReg.zero
    tagout := ByteReg.zero
    ibuf := Memory.cleared
    obuf := Memory.cleared
    outLock := false }

/-- CLEAR (R208). -/
def clearCommand (c : Params) (s : State) : State := runCommand c .clear (fun s => s.clearSecrets.finish) s

/-- PERMUTE (R136): `S <- Perm(s, S, RND)`. -/
def permuteCommand (c : Params) (sch : Scheme) (bank : BankSel) (rnd : BitVec 4) (s : State) : State :=
  runCommand c (.permute sch bank rnd)
    (fun s => (s.setBank bank (perm c sch rnd.toNat (s.bank bank))).finish) s

/-- The meaning of NOP. -/
def execNop (s : State) : Host.Outcome State Fault Refusal := .next (nopCommand Config.params s)

/-- The meaning of CLEAR. -/
def execClear (s : State) : Host.Outcome State Fault Refusal := .next (clearCommand Config.params s)

/-- The meaning of PERMUTE. -/
def execPermute (sch : Scheme) (bank : BankSel) (rnd : BitVec 4) (s : State) : Host.Outcome State Fault Refusal :=
  .next (permuteCommand Config.params sch bank rnd s)

end Sys2Proof.Machine
end

