-- ==== Sys2Proof/Machine/DuplexCommands.lean ====
section
/-!
DEFINITION. The duplex commands INIT, ABSORB, SQUEEZE, ENC, DEC and COPY (spec/41_duplex.md R168-R173). Each is
given for any synthesis parameters, and its `exec` form for this machine's.
-/

namespace Sys2Proof.Machine

/-- INIT (R168). -/
def initCommand (c : Params) (sch : Scheme) (bank : BankSel) (sfx : Bool) (s : State) : State :=
  runCommand c (.init sch bank sfx)
    (fun s => (s.setBank bank (initBank c sch s.keyBytes (s.nonceBytes sch) sfx)).finish) s

/-- ABSORB (R169). -/
def absorbCommand (c : Params) (sch : Scheme) (bank : BankSel) (src : AbsorbSource) (dom : Byte) (s : State) : State :=
  runCommand c (.absorb sch bank src dom)
    (fun s => (s.setBank bank (absorb c sch (s.bank bank) (s.absorbBytes src) dom)).finish) s

/-- The length SQUEEZE produces: MLEN for OBUF, `tagLen(s)` otherwise (R170). -/
def squeezeLen (s : State) (sch : Scheme) : SqueezeDest → Nat
  | .obuf => s.mlen.toNat
  | .tagout => tagLen sch
  | .texp => tagLen sch

/-- The squeezed bytes to their destination (R170): a tag register is zero after the tag. -/
def State.deliver (s : State) (dest : SqueezeDest) (out : List Byte) : State :=
  match dest with
  | .obuf => s.writeOutput out
  | .tagout => { s with tagout := ByteReg.ofBytes out }
  | .texp => { s with texp := ByteReg.ofBytes out }

/-- SQUEEZE (R170). -/
def squeezeCommand (c : Params) (sch : Scheme) (bank : BankSel) (dest : SqueezeDest) (s : State) : State :=
  runCommand c (.squeeze sch bank dest)
    (fun s =>
      let r := squeeze c sch (s.bank bank) (squeezeLen s sch dest)
      ((s.setBank bank r.1).deliver dest r.2).finish) s

/-- The banks a duplex pass leaves: `S`, and `S'` when LS = 1 (R171, R172). -/
def State.setDuplexBanks (s : State) (bank : BankSel) (ls : Bool) (r : DuplexResult) : State :=
  if ls then (s.setBank bank r.bank).setBank bank.other r.other else s.setBank bank r.bank

/-- ENC (R171). -/
def encCommand (c : Params) (sch : Scheme) (bank : BankSel) (ls : Bool) (s : State) : State :=
  runCommand c (.enc sch bank ls)
    (fun s =>
      let r := duplexEnc c sch (s.bank bank) s.messageBytes ls (s.bank bank.other)
      ((s.setDuplexBanks bank ls r).writeOutput r.out).finish) s

/-- DEC (R172): it sets OUT_LOCK, also when MLEN = 0. -/
def decCommand (c : Params) (sch : Scheme) (bank : BankSel) (ls : Bool) (s : State) : State :=
  runCommand c (.dec sch bank ls)
    (fun s =>
      let r := duplexDec c sch (s.bank bank) s.messageBytes ls (s.bank bank.other)
      State.finish { (s.setDuplexBanks bank ls r).writeOutput r.out with outLock := true }) s

/-- COPY (R173): the destination bank takes the other bank's words. -/
def copyCommand (c : Params) (dst : BankSel) (s : State) : State :=
  runCommand c (.copy dst) (fun s => (s.setBank dst (s.bank dst.other)).finish) s

/-- The meaning of INIT. -/
def execInit (sch : Scheme) (bank : BankSel) (sfx : Bool) (s : State) : Host.Outcome State Fault Refusal :=
  .next (initCommand Config.params sch bank sfx s)

/-- The meaning of ABSORB. -/
def execAbsorb (sch : Scheme) (bank : BankSel) (src : AbsorbSource) (dom : Byte) (s : State) :
    Host.Outcome State Fault Refusal :=
  .next (absorbCommand Config.params sch bank src dom s)

/-- The meaning of SQUEEZE. -/
def execSqueeze (sch : Scheme) (bank : BankSel) (dest : SqueezeDest) (s : State) :
    Host.Outcome State Fault Refusal :=
  .next (squeezeCommand Config.params sch bank dest s)

/-- The meaning of ENC. -/
def execEnc (sch : Scheme) (bank : BankSel) (ls : Bool) (s : State) : Host.Outcome State Fault Refusal :=
  .next (encCommand Config.params sch bank ls s)

/-- The meaning of DEC. -/
def execDec (sch : Scheme) (bank : BankSel) (ls : Bool) (s : State) : Host.Outcome State Fault Refusal :=
  .next (decCommand Config.params sch bank ls s)

/-- The meaning of COPY. -/
def execCopy (dst : BankSel) (s : State) : Host.Outcome State Fault Refusal :=
  .next (copyCommand Config.params dst s)

end Sys2Proof.Machine
end

