-- ==== Sys2Proof/Machine/Dispatch.lean ====
section
/-!
DEFINITION. One arm for each command of the opcode table (spec/30_encoding.md R99).
-/

namespace Sys2Proof.Machine

def exec (i : Instr) (s : State) : Host.Outcome State Fault Refusal :=
  match i with
  | .nop => Sys2Proof.Machine.execNop s
  | .aeadEnc sch => Sys2Proof.Machine.execAeadEnc sch s
  | .aeadDec sch => Sys2Proof.Machine.execAeadDec sch s
  | .clear => Sys2Proof.Machine.execClear s
  | .init sch bank sfx => Sys2Proof.Machine.execInit sch bank sfx s
  | .absorb sch bank src dom => Sys2Proof.Machine.execAbsorb sch bank src dom s
  | .squeeze sch bank dest => Sys2Proof.Machine.execSqueeze sch bank dest s
  | .enc sch bank ls => Sys2Proof.Machine.execEnc sch bank ls s
  | .dec sch bank ls => Sys2Proof.Machine.execDec sch bank ls s
  | .permute sch bank rnd => Sys2Proof.Machine.execPermute sch bank rnd s
  | .copy dst => Sys2Proof.Machine.execCopy dst s
  | .verify sch => Sys2Proof.Machine.execVerify sch s

end Sys2Proof.Machine
end

