-- ==== Sys2Proof/Machine/Port.lean ====
section
/-!
DEFINITION. The host port (spec/20_memory.md R60-R70): the address map, what a read returns, what a write does, idle
and busy, the constant registers (spec/10_state.md R33-R37), and the answer to a refused access (R61).
-/

namespace Sys2Proof.Machine

/-- What an offset of the window names (R62). KEY, NONCE, TAGIN and TAGOUT carry the register number `k`; the
buffers carry the byte offset of their word. -/
inductive PortTarget where
  | id | version | ctrl | status | cmd | lens | aoff | alen | moff | mlen | doff
  | domcfg | rndcfg | bufcfg | errcmd | paramcfg
  | key (k : Nat)
  | nonce (k : Nat)
  | tagin (k : Nat)
  | tagout (k : Nat)
  | ibuf (off : Nat)
  | obuf (off : Nat)
  | unmapped
deriving DecidableEq, Repr

/-- The registers of R62's map, by offset. -/
def registerMap : List (Nat × PortTarget) :=
  [(0x000, .id), (0x004, .version), (0x008, .ctrl), (0x00C, .status), (0x010, .cmd), (0x014, .lens),
   (0x018, .aoff), (0x01C, .alen), (0x020, .moff), (0x024, .mlen), (0x028, .doff),
   (0x02C, .domcfg), (0x030, .rndcfg), (0x034, .bufcfg), (0x038, .errcmd), (0x03C, .paramcfg),
   (0x040, .key 0), (0x044, .key 1), (0x048, .key 2), (0x04C, .key 3),
   (0x050, .nonce 0), (0x054, .nonce 1), (0x058, .nonce 2), (0x05C, .nonce 3),
   (0x060, .tagin 0), (0x064, .tagin 1), (0x068, .tagin 2), (0x06C, .tagin 3),
   (0x070, .tagout 0), (0x074, .tagout 1), (0x078, .tagout 2), (0x07C, .tagout 3)]

/-- What an aligned offset names (R62); every offset the map does not list is unmapped (R63). -/
def portTarget (c : Params) (off : Nat) : PortTarget :=
  match registerMap.lookup off with
  | some t => t
  | none =>
      if 0x1000 ≤ off ∧ off < 0x1000 + c.bufBytes then .ibuf (off - 0x1000)
      else if 0x2000 ≤ off ∧ off < 0x2000 + c.bufBytes then .obuf (off - 0x2000)
      else .unmapped

/-! ## Constant registers -/

/-- ID (R33): "KGPD". -/
def idWord : Reg := 0x4B475044

/-- VERSION (R33). -/
def versionWord : Reg := 0x00010000

/-- DOMCFG (R34). -/
def domcfgWord (c : Params) : Reg :=
  c.adDomainE.setWidth 32 ||| c.tagDomainE.setWidth 32 <<< 8 ||| c.adDomainI.setWidth 32 <<< 16 |||
  c.tagDomainI.setWidth 32 <<< 24

/-- A four-bit field that holds a round count (R35). -/
def roundField (n : Nat) : Reg := (BitVec.ofNat 4 n).setWidth 32

/-- RNDCFG (R35). -/
def rndcfgWord (c : Params) : Reg :=
  roundField (fullRounds .elephant) ||| roundField (reducedRounds c .elephant) <<< 4 |||
  roundField (fullRounds .isap) <<< 8 ||| roundField (reducedRounds c .isap) <<< 12

/-- BUFCFG (R36). -/
def bufcfgWord (c : Params) : Reg := (BitVec.ofNat 16 c.bufBytes).setWidth 32

/-- Bit 0 of PARAMCFG (R37). -/
def RcStartMode.bits : RcStartMode → Reg
  | .first => 0
  | .last => 1

/-- Bits 2:1 of PARAMCFG (R37). -/
def PiRhoVariant.bits : PiRhoVariant → Reg
  | .gd => 0
  | .gs => 1
  | .ss => 2
  | .sd => 3

/-- Bit 3 of PARAMCFG (R37). -/
def PartialAlign.bits : PartialAlign → Reg
  | .msb => 0
  | .lsb => 1

/-- PARAMCFG (R37). -/
def paramcfgWord (c : Params) : Reg :=
  RcStartMode.bits c.rcStartMode ||| PiRhoVariant.bits c.piRhoVariant <<< 1 ||| PartialAlign.bits c.partialAlign <<< 3

/-! ## Reads -/

/-- The value a target holds for a host read while BUSY = 0: KEY and CMD read 0 (R22, R31), OBUF reads 0 while
OUT_LOCK = 1 (R67), an unmapped offset reads 0 (R63). -/
def readTarget (c : Params) (s : State) : PortTarget → Reg
  | .id => idWord
  | .version => versionWord
  | .ctrl => s.ctrlWord
  | .status => s.statusWord
  | .cmd => 0
  | .lens => s.lensWord
  | .aoff => s.aoff.setWidth 32
  | .alen => s.alen.setWidth 32
  | .moff => s.moff.setWidth 32
  | .mlen => s.mlen.setWidth 32
  | .doff => s.doff.setWidth 32
  | .domcfg => domcfgWord c
  | .rndcfg => rndcfgWord c
  | .bufcfg => bufcfgWord c
  | .errcmd => s.errcmd
  | .paramcfg => paramcfgWord c
  | .key _ => 0
  | .nonce k => s.nonce.readWord k
  | .tagin k => s.tagin.readWord k
  | .tagout k => s.tagout.readWord k
  | .ibuf off => s.ibuf.readReg off
  | .obuf off => if s.outLock then 0 else s.obuf.readReg off
  | .unmapped => 0

/-- The targets that read their value while BUSY = 1 (R68). -/
def readableWhileBusy : PortTarget → Bool
  | .id => true
  | .version => true
  | .ctrl => true
  | .status => true
  | .domcfg => true
  | .rndcfg => true
  | .bufcfg => true
  | .paramcfg => true
  | _ => false

/-- The value a supported read returns (R62, R63, R67, R68). No read has a side effect (R70). -/
def hostRead (c : Params) (s : State) (off : Nat) : Reg :=
  let t := portTarget c off
  if s.busy && !readableWhileBusy t then 0 else readTarget c s t

/-! ## Writes -/

/-- The targets whose write is dropped and sets OVR while BUSY = 1 (R68). -/
def droppedWhileBusy : PortTarget → Bool
  | .cmd => true
  | .lens => true
  | .aoff => true
  | .alen => true
  | .moff => true
  | .mlen => true
  | .doff => true
  | .key _ => true
  | .nonce _ => true
  | .tagin _ => true
  | .ibuf _ => true
  | _ => false

/-- A write while it is not dropped: a read-only or unmapped target ignores it (R63). The region registers keep
`value & 0xFFFF` (R28). -/
def writeTarget (s : State) (v : Reg) : PortTarget → State
  | .ctrl => s.writeCtrl v
  | .status => s.writeStatus v
  | .cmd => s.accept v
  | .lens => s.writeLens v
  | .aoff => { s with aoff := v.setWidth 16 }
  | .alen => { s with alen := v.setWidth 16 }
  | .moff => { s with moff := v.setWidth 16 }
  | .mlen => { s with mlen := v.setWidth 16 }
  | .doff => { s with doff := v.setWidth 16 }
  | .key k => { s with key := s.key.writeWord k v }
  | .nonce k => { s with nonce := s.nonce.writeWord k v }
  | .tagin k => { s with tagin := s.tagin.writeWord k v }
  | .ibuf off => { s with ibuf := s.ibuf.writeReg off v }
  | .id => s
  | .version => s
  | .domcfg => s
  | .rndcfg => s
  | .bufcfg => s
  | .errcmd => s
  | .paramcfg => s
  | .tagout _ => s
  | .obuf _ => s
  | .unmapped => s

/-- A supported write (R62, R63, R68). -/
def hostWrite (c : Params) (s : State) (off : Nat) (v : Reg) : State :=
  let t := portTarget c off
  if s.busy && droppedWhileBusy t then { s with ovr := true } else writeTarget s v t

/-! ## Accesses -/

/-- Only aligned 32-bit accesses are supported (R61). -/
def accessSupported (width : AccessWidth) (off : BitVec 14) : Bool := width == .word && off.toNat % 4 == 0

/-- A host read at the port: its value, or the bus's error response (R61). -/
def portRead (c : Params) (s : State) (width : AccessWidth) (off : BitVec 14) : State :=
  if accessSupported width off then { s with response := some (.readData (hostRead c s off.toNat)) }
  else { s with response := some .busError }

/-- A host write at the port: performed, or refused with the bus's error response and no effect (R61). -/
def portWrite (c : Params) (s : State) (width : AccessWidth) (off : BitVec 14) (v : Reg) : State :=
  if accessSupported width off then { hostWrite c s off.toNat v with response := some .writeDone }
  else { s with response := some .busError }

/-- The read data the host sees: a refused read returns 0 (R61). -/
def PortResponse.data : PortResponse → Reg
  | .readData v => v
  | .writeDone => 0
  | .busError => 0

/-- The offset of a platform address, when it lies in the block's window: `off = address - BASE`, 0 <= off < 0x4000
(R60). -/
def windowOffset (c : Params) (address : Nat) : Option (BitVec 14) :=
  if c.base ≤ address ∧ address < c.base + 0x4000 then some (BitVec.ofNat 14 (address - c.base)) else none

end Sys2Proof.Machine
end

