-- ==== Sys2Proof/Machine/Synthesis.lean ====
section
/-!
DEFINITION. The block for any synthesis parameters (spec/00_scope.md R6, spec/93_implementation_defined.md I1, I2):
its commands, its step (spec/20_memory.md R71, R72, spec/93_implementation_defined.md I15; log 4) and the machine they
make, each with the parameters as an argument. `Machine/Step.lean` takes the same step at `Config.params` (log 2).
-/

namespace Sys2Proof.Machine

/-- The meaning of a command on a block with the parameters `c`. -/
def commandAt (c : Params) (i : Instr) (s : State) : State :=
  match i with
  | .nop => nopCommand c s
  | .aeadEnc sch => aeadEncCommand c sch s
  | .aeadDec sch => aeadDecCommand c sch s
  | .clear => clearCommand c s
  | .init sch bank sfx => initCommand c sch bank sfx s
  | .absorb sch bank src dom => absorbCommand c sch bank src dom s
  | .squeeze sch bank dest => squeezeCommand c sch bank dest s
  | .enc sch bank ls => encCommand c sch bank ls s
  | .dec sch bank ls => decCommand c sch bank ls s
  | .permute sch bank rnd => permuteCommand c sch bank rnd s
  | .copy dst => copyCommand c dst s
  | .verify sch => verifyCommand c sch s

/-- `exec` on a block with the parameters `c`: no command stops. -/
def execAt (c : Params) (i : Instr) (s : State) : Host.Outcome State Fault Refusal := .next (commandAt c i s)

/-- The turn of the engine, with `run` as the meaning of a command. It ends a clearing period (R272) and changes
nothing when idle (spec/60_exceptions.md R256). A running command completes: an illegal word raises ILLEGAL_COMMAND
(R241), a legal one runs its meaning whole (log 7). -/
def engineTurn (run : Instr → State → Host.Outcome State Fault Refusal) (s : State) :
    Host.Outcome State Fault Refusal :=
  match s.phase with
  | .idle => .next s
  | .clearReset => .next s.endClearing
  | .run =>
      match decode s.cmd with
      | .error _ => .next (s.raiseError .illegalCommand)
      | .ok i => run i s

/-- One step: the first event of `port`; with none left the engine has the turn, so that an accepted command and a
clearing period do end (R72, R272). -/
def machineStep (c : Params) (run : Instr → State → Host.Outcome State Fault Refusal) (s : State) :
    Host.Outcome State Fault Refusal :=
  match s.port with
  | [] => engineTurn run s
  | .engine :: rest => engineTurn run { s with port := rest }
  | .rst :: rest => .next (State.resetBlock { s with port := rest })
  | .read width off :: rest => .next (portRead c { s with port := rest } width off)
  | .write width off v :: rest => .next (portWrite c { s with port := rest } width off v)

/-- The step of a block with the parameters `c` (R6). -/
def stepAt (c : Params) (s : State) : Host.Outcome State Fault Refusal := machineStep c (execAt c) s

/-- The machine of a block with the parameters `c` (R6). No parameter enters the reset values (R42). -/
def coreAt (c : Params) : Host.Core where
  State := State
  Fault := Fault
  Refusal := Refusal
  step := stepAt c
  reset := State.reset

end Sys2Proof.Machine
end

