-- ==== Sys2Proof/Machine/Step.lean ====
section
/-!
DEFINITION. One step of the machine of this package: the step of `Machine/Synthesis.lean` at the parameters
`Config.params` (spec/00_scope.md R6, log 2), with `exec` as the meaning of a command.
-/

namespace Sys2Proof.Machine

/-- The turn of the engine (R72, R256, R272). -/
def engineStep (s : State) : Host.Outcome State Fault Refusal := engineTurn exec s

/-- One step: the next port event, or the engine's turn (R71, R72). -/
def step (s : State) : Host.Outcome State Fault Refusal := machineStep Config.params exec s

/-- The command word `w` placed where the next step takes its command: the latch of an accepted command (R31, R248),
with the engine's turn next. It stands for the host's CMD write (log 8). -/
def State.withFetchWord (s : State) (nbits w : Nat) : State :=
  { s with cmd := BitVec.ofNat 32 (w % 2 ^ nbits), phase := .run, port := [] }

end Sys2Proof.Machine
end

