-- ==== Sys2Proof/Machine/HostNotation.lean ====
section
/-!
DEFINITION. The host-program notation of spec/30_encoding.md R104 as lists of port events. The block sees only the
accesses a pseudo-instruction expands to.
-/

namespace Sys2Proof.Machine

/-- `W <off>, <value>`: a 32-bit write. -/
def hostW (off : Nat) (v : Reg) : PortEvent := .write .word (BitVec.ofNat 14 off) v

/-- `R <off>`: a 32-bit read. -/
def hostR (off : Nat) : PortEvent := .read .word (BitVec.ofNat 14 off)

/-- Group `k` of a byte string, four bytes packed by R64, a short group padded with zero bytes. -/
def packGroup (b : List Byte) (k : Nat) : Reg := packReg fun j => b.getD (4 * k + j) 0

/-- Writes of the groups of `b` from offset `base` on. -/
def hostLoad (base groups : Nat) (b : List Byte) : List PortEvent :=
  (List.range groups).map fun k => hostW (base + 4 * k) (packGroup b k)

/-- `SETKEY k[0..15]`. -/
def setKey (k : List Byte) : List PortEvent := hostLoad 0x040 4 k

/-- `SETNONCE n[0..15]`. -/
def setNonce (n : List Byte) : List PortEvent := hostLoad 0x050 4 n

/-- `SETTAG t[0..15]`. -/
def setTag (t : List Byte) : List PortEvent := hostLoad 0x060 4 t

/-- `SETLENS kl, nl, tl`. -/
def setLens (kl nl tl : Reg) : List PortEvent := [hostW 0x014 (kl ||| nl <<< 8 ||| tl <<< 16)]

/-- `SETREGION`: only the named registers are written. -/
def setRegion (aoff alen moff mlen doff : Option Reg) : List PortEvent :=
  (aoff.map (hostW 0x018)).toList ++ (alen.map (hostW 0x01C)).toList ++ (moff.map (hostW 0x020)).toList ++
  (mlen.map (hostW 0x024)).toList ++ (doff.map (hostW 0x028)).toList

/-- `LOADBUF off, bytes`, `off` a multiple of 4. -/
def loadBuf (off : Nat) (b : List Byte) : List PortEvent := hostLoad (0x1000 + off) ((b.length + 3) / 4) b

/-- `WAIT`: `polls` reads of STATUS that still see BUSY = 1, the completion, and the read that sees BUSY = 0. -/
def hostWait (polls : Nat) : List PortEvent := List.replicate polls (hostR 0x00C) ++ [.engine, hostR 0x00C]

/-- `RUN <mnemonic>`: the CMD write, then WAIT. -/
def hostRun (i : Instr) (polls : Nat) : List PortEvent := hostW 0x010 (encode i) :: hostWait polls

/-- `CLRSTATUS`: clears DONE, ERR and OVR. -/
def clrStatus : List PortEvent := [hostW 0x00C 0x00000026]

end Sys2Proof.Machine
end

