-- ==== Sys2Proof/Machine/Timing.lean ====
section
/-!
DEFINITION. Latency (spec/70_reset_and_hazards.md R277-R279). R277 is normative: the number of cycles of a command is
a function of the key built here and of nothing else; the function is open (`Config.commandCycles`, log 12). R278's
table is informative and stands here as `tableCycles`. No step of the machine reads either.
-/

namespace Sys2Proof.Machine

/-- Whether an opcode uses MLEN (R169-R172, R201, R202); SQUEEZE uses it with DSEL = OBUF only (R170, log 15). -/
def usesMlen (w : Reg) : Bool :=
  match decode w with
  | .ok (.absorb _ _ _ _) => true
  | .ok (.squeeze _ _ .obuf) => true
  | .ok (.enc _ _ _) => true
  | .ok (.dec _ _ _) => true
  | .ok (.aeadEnc _) => true
  | .ok (.aeadDec _) => true
  | _ => false

/-- Whether an opcode uses ALEN (R201, R202). -/
def usesAlen (w : Reg) : Bool :=
  match decode w with
  | .ok (.aeadEnc _) => true
  | .ok (.aeadDec _) => true
  | _ => false

/-- What a command's latency may depend on (R277). -/
def latencyKey (c : Params) (w : Reg) (s : State) : LatencyKey where
  op := fieldOp w
  sch := fieldSch w
  x := fieldX w
  rnd := fieldRnd w
  mlen := if usesMlen w then some s.mlen else none
  alen := if usesAlen w then some s.alen else none
  preCheck := (preCheckWord c w s).code
  params := c

/-- The cycles from acceptance of `w` to its completion (R277). -/
def commandLatency (c : Params) (w : Reg) (s : State) : Nat := Config.commandCycles (latencyKey c w s)

/-- The cycles of the clearing period after a reset (R272, R277). -/
def clearingLatency (c : Params) : Nat := Config.clearingCycles c.bufBytes

/-- SQUEEZE's row of R278. -/
def squeezeCycles (len red : Nat) : Nat := if len = 0 then 1 else 1 + nb len + (nb len - 1) * red

/-- The rows of R278's informative table for a command that passed its pre-checks. -/
def tableCyclesOf (c : Params) (s : State) : Instr → Nat
  | .nop => 1
  | .clear => 1 + c.bufBytes / 4
  | .copy _ => 2
  | .permute _ _ rnd => 1 + rnd.toNat
  | .init sch _ _ => 1 + 1 + fullRounds sch
  | .absorb sch _ _ _ => 1 + nb s.mlen.toNat * (1 + reducedRounds c sch)
  | .squeeze sch _ .obuf => squeezeCycles s.mlen.toNat (reducedRounds c sch)
  | .squeeze sch _ .tagout => squeezeCycles (tagLen sch) (reducedRounds c sch)
  | .squeeze sch _ .texp => squeezeCycles (tagLen sch) (reducedRounds c sch)
  | .enc sch _ _ => 1 + nb s.mlen.toNat * (1 + reducedRounds c sch)
  | .dec sch _ _ => 1 + nb s.mlen.toNat * (1 + reducedRounds c sch)
  | .verify sch => 1 + tagLen sch + c.bufBytes / 4
  | .aeadEnc .elephant => 17 + (nb s.alen.toNat + nb s.mlen.toNat) * (1 + reducedRounds c .elephant)
  | .aeadEnc .isap => 36 + 7 * nb s.alen.toNat + 14 * nb s.mlen.toNat
  | .aeadDec .elephant =>
      17 + (nb s.alen.toNat + nb s.mlen.toNat) * (1 + reducedRounds c .elephant) + 8 + c.bufBytes / 4
  | .aeadDec .isap => 36 + 7 * nb s.alen.toNat + 14 * nb s.mlen.toNat + 16 + c.bufBytes / 4

/-- R278's informative table: 1 cycle for a failed pre-check. -/
def tableCycles (c : Params) (w : Reg) (s : State) : Nat :=
  match decode w with
  | .error _ => 1
  | .ok i => if preCheck c i s = .none then tableCyclesOf c s i else 1

/-- The clearing period's row of R278. -/
def tableClearingCycles (c : Params) : Nat := c.bufBytes / 4

end Sys2Proof.Machine
end

