-- ==== Sys2Proof/Safety.lean ====
section
/-!
DEFINITION. The words claims are stated in: what LENS and the regions must hold for a command to pass its pre-checks, the
state a failed pre-check leaves, and the invariant every step keeps.
-/

namespace Sys2Proof.Machine

/-! ## Conditions of the pre-checks, in the numbers of the spec -/

/-- A region is empty or ends inside the buffer (R243). -/
abbrev Fits (c : Params) (off len : BitVec 16) : Prop := len = 0 ∨ off.toNat + len.toNat ≤ c.bufBytes

/-- LENS declares a key of 16 bytes (R242). -/
abbrev State.DeclaresKey (s : State) : Prop := s.lensKey.toNat = 16

/-- LENS declares the scheme's nonce length: Elephant 8, ISAP 16 (R242). -/
abbrev State.DeclaresNonce (s : State) : Scheme → Prop
  | .elephant => s.lensNonce.toNat = 8
  | .isap => s.lensNonce.toNat = 16

/-- LENS declares the scheme's tag length: Elephant 8, ISAP 16 (R242). -/
abbrev State.DeclaresTag (s : State) : Scheme → Prop
  | .elephant => s.lensTag.toNat = 8
  | .isap => s.lensTag.toNat = 16

/-- The three regions of an AEAD command fit (R243). -/
abbrev State.AeadRegionsFit (s : State) (c : Params) : Prop :=
  Fits c s.aoff s.alen ∧ Fits c s.moff s.mlen ∧ Fits c s.doff s.mlen

/-- The two regions of ENC and DEC fit (R243). -/
abbrev State.DuplexRegionsFit (s : State) (c : Params) : Prop := Fits c s.moff s.mlen ∧ Fits c s.doff s.mlen

/-- `data` is the string of `len` bytes that the buffer holds from offset `off` on: `MemRead` of R69. -/
abbrev Memory.Holds (m : Memory) (off len : BitVec 16) (data : List Byte) : Prop :=
  data.length = len.toNat ∧ ∀ j < len.toNat, data.getD j 0 = m.read (off.toNat + j)

/-- `a` is the main state of AEAD_ENC and AEAD_DEC before the message: the initialised bank, and the AD absorbed into
it with the scheme's AD domain byte when there is any (steps 2 and 3 of R201). -/
abbrev MainState (c : Params) (sch : Scheme) (key nonce ad : List Byte) (a : Bank) : Prop :=
  match sch with
  | .elephant =>
      a = if ad = [] then initBank c .elephant key nonce false
        else absorb c .elephant (initBank c .elephant key nonce false) ad c.adDomainE
  | .isap =>
      a = if ad = [] then initBank c .isap key nonce false
        else absorb c .isap (initBank c .isap key nonce false) ad c.adDomainI

/-- `tag` is the tag `tagI` computes of a ciphertext (R204). -/
abbrev IsapTagOf (c : Params) (key nonce ciphertext tag : List Byte) : Prop :=
  tag = (squeeze c .isap (absorb c .isap (initBank c .isap key nonce true) ciphertext c.tagDomainI) 16).2

/-- The state after a command that ended with the error `e` and changed nothing else (R246, R247). -/
def State.failedWith (s : State) (e : ErrorCode) : State :=
  { s with phase := .idle, done := true, err := true, errcode := e, errcmd := s.cmd }

/-- The state after the command that changed nothing of its own (R247). -/
def State.completed (s : State) : State := { s with phase := .idle, done := true }

/-- It is the engine's turn, and `rest` is what is still to arrive after it. -/
abbrev State.EngineTurn (s : State) (rest : List PortEvent) : Prop :=
  (s.port = [] ∧ rest = []) ∨ s.port = .engine :: rest

/-! ## The invariant -/

/-- Every byte a buffer lists lies inside it (R38). -/
abbrev Memory.Within (m : Memory) (size : Nat) : Prop := ∀ cell ∈ m, cell.1 < size

/-- Nothing from before a reset is held (R271). -/
abbrev State.Erased (s : State) : Prop :=
  s.bankA = Bank.zero ∧ s.bankB = Bank.zero ∧ s.key = ByteReg.zero ∧ s.nonce = ByteReg.zero ∧
  s.tagin = ByteReg.zero ∧ s.tagout = ByteReg.zero ∧ s.texp = ByteReg.zero ∧ s.ibuf = [] ∧ s.obuf = []

/-- What holds in every state a block with the parameters `c` reaches. -/
structure Inv (c : Params) (s : State) : Prop where
  /-- IBUF is in canonical form. -/
  ibuf_wf : s.ibuf.wf
  /-- OBUF is in canonical form. -/
  obuf_wf : s.obuf.wf
  /-- IBUF holds bytes `0 .. BUF_BYTES-1` only (R38). -/
  ibuf_within : Memory.Within s.ibuf c.bufBytes
  /-- OBUF holds bytes `0 .. BUF_BYTES-1` only (R38). -/
  obuf_within : Memory.Within s.obuf c.bufBytes
  /-- ERR is 1 exactly when ERRCODE names an error (R240, R247). -/
  err_iff : s.err = true ↔ s.errcode ≠ .none
  /-- Without an error ERRCMD is 0 (R32, R247). -/
  errcmd_zero : s.err = false → s.errcmd = 0
  /-- While BUSY, the status of the last command is gone (R248, R271). -/
  busy_clean : s.phase ≠ .idle → s.done = false ∧ s.err = false ∧ s.authOk = false
  /-- A verified tag has released the output and used up TEXP (R206). -/
  auth_released : s.authOk = true → s.outLock = false ∧ s.texp = ByteReg.zero
  /-- During the clearing period nothing from before the reset is held (R271, R272). -/
  clearing_erased : s.phase = .clearReset → s.Erased ∧ s.outLock = false

end Sys2Proof.Machine
end

