-- ==== Sys2Proof/Certificates/Slice0/Obligations.lean ====
section
/-!
DEFINITION. The statements for the provers, each the formal reading of a rule of spec/. Those about a command give its
next state whole: where a record update `{ s with … }` stands, every field it does not name is unchanged.
-/

open Sys2Proof Sys2Proof.Machine

/-! ## Encoding -/

/-- The worked encodings of R105: each word is the form's, and the three illegal words are illegal. -/
def Obligations.DecodeReadsTheWorkedWords : Prop :=
  (∀ p ∈ [((0x00000001 : Reg), Instr.aeadEnc .elephant), (0x00000101, .aeadEnc .isap), (0x00000102, .aeadDec .isap),
      (0x01000111, .absorb .isap .a .ibuf 0x01), (0x02001511, .absorb .isap .b .obuf 0x02),
      (0x00001512, .squeeze .isap .b .tagout), (0x00002412, .squeeze .elephant .b .texp),
      (0x00000813, .enc .elephant .a true), (0x00060115, .permute .isap .a 6),
      (0x000C0415, .permute .elephant .b 12), (0x00000416, .copy .b), (0x00000017, .verify .elephant)],
    encode p.2 = p.1 ∧ decode p.1 = .ok p.2) ∧
  decode 0x000D0115 = .error .tooManyRounds ∧ decode 0x00000201 = .error .reservedScheme ∧
  decode 0x00000116 = .error .forbiddenBit

/-- Every command the encoding admits, with every operand, is read back from its word (R100, R103). -/
def Obligations.DecodeOfEncodeIsTheCommand : Prop :=
  ∀ i : Instr, i.WellFormed → decode (encode i) = .ok i

/-- Every legal word names one command, whose word it is: no bit of a legal word is ignored (R98, R100). -/
def Obligations.EncodeOfDecodeIsTheWord : Prop :=
  ∀ (w : Reg) (i : Instr), decode w = .ok i → i.WellFormed ∧ encode i = w

/-- The legal words are those of the table of R98: OP in the map, the masked bits right, and the extra legality. -/
def Obligations.LegalWordsAreTheTablesWords : Prop :=
  ∀ w : Reg, (∃ i, decode w = .ok i) ↔
    ∃ op : Opcode, w &&& op.mask = op.pattern ∧
      ((op ≠ .nop ∧ op ≠ .clear ∧ op ≠ .copy) → (w.extractLsb' 8 2).toNat ≤ 1) ∧
      (op = .squeeze → w.extractLsb' 12 2 ≠ 3) ∧
      (op = .permute → (w.extractLsb' 16 4).toNat ≤ 12)

/-! ## Steps -/

/-- When the latched word decodes to `i` and it is the engine's turn, the step is `exec i`; the only thing added is
that the turn is taken from the list of events (R72, R245; which agent moves is the model's, log 4). The machine is
the one of R6 at the parameters `Config.params` (log 2): `stepAt c` runs the same command with any parameters `c`. -/
def Obligations.StepRunsTheDecodedCommand : Prop :=
  ∀ (s : State) (rest : List PortEvent) (i : Instr), s.phase = .run → s.EngineTurn rest → decode s.cmd = .ok i →
    step s = exec i { s with port := rest } ∧
    step s = stepAt Config.params s ∧
    ∀ c : Params, stepAt c s = .next (commandAt c i { s with port := rest })

/-- A word that does not decode completes with ILLEGAL_COMMAND and changes nothing else (R101, R241, R246, R247;
whose turn it is, log 4). -/
def Obligations.IllegalWordCompletesWithIllegalCommand : Prop :=
  ∀ (s : State) (rest : List PortEvent) (e : Illegal), s.phase = .run → s.EngineTurn rest → decode s.cmd = .error e →
    step s = .next (State.failedWith { s with port := rest } .illegalCommand)

/-- The block never stops: every step from every state answers a next state, and takes exactly the first event that
arrived; the engine's turn in phase IDLE changes nothing else (R71, R101, R250, R256; the list of events is the model's,
log 4). -/
def Obligations.EveryStepAnswersANextState : Prop :=
  ∀ s : State, (∃ t, step s = .next t ∧ t.port = s.port.tail) ∧
    ∀ rest, s.phase = .idle → s.EngineTurn rest → step s = .next { s with port := rest }

/-- A CMD write while idle is accepted, whatever the word; while busy it is dropped and sets OVR (R31, R248). The event
taken from the list is the model's (log 4), and so is the answer `writeDone`, given for a dropped write too (log 5). -/
def Obligations.CmdWriteIsAcceptedOrDropped : Prop :=
  ∀ (s : State) (w : Reg) (rest : List PortEvent), s.port = .write .word 0x010 w :: rest →
    (s.phase = .idle →
      step s = .next { s with
        cmd := w, done := false, err := false, errcode := .none, errcmd := 0, authOk := false, phase := .run,
        port := rest, response := some .writeDone }) ∧
    (s.phase ≠ .idle → step s = .next { s with ovr := true, port := rest, response := some .writeDone })

/-- An accepted command, legal or not, completes at the engine's turn: BUSY falls, DONE rises, and an error is
recorded with the command's own word (R72, R247; the turn is the model's, log 4). -/
def Obligations.AcceptedCommandCompletes : Prop :=
  ∀ (s : State) (w : Reg) (rest : List PortEvent), s.phase = .idle → s.port = .write .word 0x010 w :: .engine :: rest →
    ∃ t u, step s = .next t ∧ t.busy = true ∧ t.done = false ∧ step t = .next u ∧
      u.busy = false ∧ u.done = true ∧ u.port = rest ∧ (u.err = true ↔ u.errcode ≠ .none) ∧
      u.errcmd = if u.err then w else 0

/-- No command writes NONCE, TAGIN, LENS, the region registers, CTRL.IRQ_EN, STATUS.OVR or the command latch; every
command ends idle with DONE (R23, R24, R27, R28, R247). -/
def Obligations.CommandsKeepTheHostsRegisters : Prop :=
  ∀ (i : Instr) (s : State), ∃ t, exec i s = .next t ∧
    t.nonce = s.nonce ∧ t.tagin = s.tagin ∧ t.lensKey = s.lensKey ∧ t.lensNonce = s.lensNonce ∧
    t.lensTag = s.lensTag ∧ t.aoff = s.aoff ∧ t.alen = s.alen ∧ t.moff = s.moff ∧ t.mlen = s.mlen ∧
    t.doff = s.doff ∧ t.irqEn = s.irqEn ∧ t.ovr = s.ovr ∧ t.cmd = s.cmd ∧ t.port = s.port ∧
    t.response = s.response ∧ t.phase = .idle ∧ t.done = true

/-! ## Pre-checks -/

/-- Each opcode that checks LENS raises INVALID_PARAMETER when a checked field differs, whatever the regions hold, and
changes nothing else (R242, R245, R246). -/
def Obligations.WrongLengthsRaiseInvalidParameter : Prop :=
  ∀ (sch : Scheme) (s : State),
    (¬(s.DeclaresKey ∧ s.DeclaresNonce sch) →
      (∀ bank sfx, exec (.init sch bank sfx) s = .next (s.failedWith .invalidParameter)) ∧
      exec (.aeadEnc sch) s = .next (s.failedWith .invalidParameter)) ∧
    (¬(s.DeclaresKey ∧ s.DeclaresNonce sch ∧ s.DeclaresTag sch) →
      exec (.aeadDec sch) s = .next (s.failedWith .invalidParameter)) ∧
    (¬s.DeclaresTag sch → exec (.verify sch) s = .next (s.failedWith .invalidParameter))

/-- Each opcode that checks regions raises MALFORMED_INPUT when one overruns its buffer and its lengths are right, and
changes nothing else (R243, R245, R246). -/
def Obligations.OverrunningRegionsRaiseMalformedInput : Prop :=
  ∀ (sch : Scheme) (bank : BankSel) (s : State),
    (¬Fits Config.params s.moff s.mlen →
      ∀ src dom, exec (.absorb sch bank src dom) s = .next (s.failedWith .malformedInput)) ∧
    (¬Fits Config.params s.doff s.mlen →
      exec (.squeeze sch bank .obuf) s = .next (s.failedWith .malformedInput)) ∧
    (¬s.DuplexRegionsFit Config.params →
      ∀ ls, exec (.enc sch bank ls) s = .next (s.failedWith .malformedInput) ∧
        exec (.dec sch bank ls) s = .next (s.failedWith .malformedInput)) ∧
    (¬s.AeadRegionsFit Config.params → s.DeclaresKey → s.DeclaresNonce sch →
      exec (.aeadEnc sch) s = .next (s.failedWith .malformedInput) ∧
      (s.DeclaresTag sch → exec (.aeadDec sch) s = .next (s.failedWith .malformedInput)))

/-- The only errors a command ends with, apart from a failed verification, are those of the pre-checks, and such an end
changes no bank, key, tag register, buffer or lock (R245, R246). -/
def Obligations.ErrorsComeFromPreChecksOrVerification : Prop :=
  ∀ (i : Instr) (s t : State), s.err = false → exec i s = .next t → t.err = true →
    (t = s.failedWith t.errcode ∧ t.errcode = preCheck Config.params i s) ∨
    (t.errcode = .authenticationFailure ∧ ∃ sch, i = .verify sch ∨ i = .aeadDec sch)

/-! ## Commands -/

/-- NOP completes with no effect of its own (R209). -/
def Obligations.NopOnlyCompletes : Prop :=
  ∀ s : State, exec .nop s = .next { s with phase := .idle, done := true }

/-- CLEAR zeroes both banks, TEXP, KEY, TAGOUT and both buffers, clears OUT_LOCK and keeps the rest (R208). -/
def Obligations.ClearErasesAndCompletes : Prop :=
  ∀ s : State, ∃ t, exec .clear s = .next t ∧
    (∀ i, t.bankA.word i = 0 ∧ t.bankB.word i = 0) ∧
    (∀ i, t.texp.byte i = 0 ∧ t.key.byte i = 0 ∧ t.tagout.byte i = 0) ∧
    (∀ a, t.ibuf.read a = 0 ∧ t.obuf.read a = 0) ∧ t.ibuf.wf ∧ t.obuf.wf ∧
    t = { s with
      bankA := t.bankA, bankB := t.bankB, texp := t.texp, key := t.key, tagout := t.tagout, ibuf := t.ibuf,
      obuf := t.obuf, outLock := false, phase := .idle, done := true }

/-- PERMUTE applies RND rounds of the scheme's permutation to the named bank and changes nothing else (R134, R136). -/
def Obligations.PermuteChangesTheNamedBankOnly : Prop :=
  ∀ (rnd : BitVec 4) (s : State), rnd.toNat ≤ 12 →
    exec (.permute .elephant .a rnd) s =
      .next { s with bankA := elephantPerm Config.params rnd.toNat s.bankA, phase := .idle, done := true } ∧
    exec (.permute .elephant .b rnd) s =
      .next { s with bankB := elephantPerm Config.params rnd.toNat s.bankB, phase := .idle, done := true } ∧
    exec (.permute .isap .a rnd) s =
      .next { s with bankA := isapPerm Config.params rnd.toNat s.bankA, phase := .idle, done := true } ∧
    exec (.permute .isap .b rnd) s =
      .next { s with bankB := isapPerm Config.params rnd.toNat s.bankB, phase := .idle, done := true }

/-- INIT loads the named bank with `key ‖ nonce (‖ 0x02)` and runs 12 rounds; nothing else changes (R163, R168). -/
def Obligations.InitLoadsTheNamedBankOnly : Prop :=
  ∀ (sch : Scheme) (sfx : Bool) (s : State), s.DeclaresKey → s.DeclaresNonce sch →
    exec (.init sch .a sfx) s =
      .next { s with
        bankA := initBank Config.params sch s.key.toList (s.nonce.toList.take (nonceLen sch)) sfx
        phase := .idle, done := true } ∧
    exec (.init sch .b sfx) s =
      .next { s with
        bankB := initBank Config.params sch s.key.toList (s.nonce.toList.take (nonceLen sch)) sfx
        phase := .idle, done := true }

/-- The words `initialize` loads before its 12 rounds: the key in words 0 and 1, the nonce after it, the suffix byte in
bits 63:56 of the word after the nonce, zero elsewhere (R163). -/
def Obligations.InitialBankHoldsKeyNonceAndSuffix : Prop :=
  ∀ (c : Params) (key nonce : List Byte) (sfx : Bool), key.length = 16 →
    (nonce.length = 8 → ∃ b : Bank, initBank c .elephant key nonce sfx = elephantPerm c 12 b ∧
      b.word 0 = packWord (fun k => key.getD k 0) ∧ b.word 1 = packWord (fun k => key.getD (8 + k) 0) ∧
      b.word 2 = packWord (fun k => nonce.getD k 0) ∧
      b.word 3 = (if sfx then 0x0200000000000000 else 0) ∧ ∀ i, 4 ≤ i → b.word i = 0) ∧
    (nonce.length = 16 → ∃ b : Bank, initBank c .isap key nonce sfx = isapPerm c 12 b ∧
      b.word 0 = packWord (fun k => key.getD k 0) ∧ b.word 1 = packWord (fun k => key.getD (8 + k) 0) ∧
      b.word 2 = packWord (fun k => nonce.getD k 0) ∧ b.word 3 = packWord (fun k => nonce.getD (8 + k) 0) ∧
      b.word 4 = (if sfx then 0x0200000000000000 else 0) ∧ ∀ i, 5 ≤ i → b.word i = 0)

/-- ABSORB changes the named bank only, by absorbing the region of IBUF or of OBUF that MOFF and MLEN name, OUT_LOCK or
not (R67, R169). -/
def Obligations.AbsorbChangesTheNamedBankOnly : Prop :=
  ∀ (sch : Scheme) (src : AbsorbSource) (dom : Byte) (s : State) (data : List Byte), Fits Config.params s.moff s.mlen →
    data.length = s.mlen.toNat →
    (∀ j < s.mlen.toNat, data.getD j 0 = (match src with
      | .ibuf => s.ibuf.read (s.moff.toNat + j)
      | .obuf => s.obuf.read (s.moff.toNat + j))) →
    exec (.absorb sch .a src dom) s =
      .next { s with bankA := absorb Config.params sch s.bankA data dom, phase := .idle, done := true } ∧
    exec (.absorb sch .b src dom) s =
      .next { s with bankB := absorb Config.params sch s.bankB data dom, phase := .idle, done := true }

/-- `absorb` of the empty string is a no-op; of one block it XORs the block and, at its last byte, the domain byte, and
permutes; a longer string is absorbed part by part, the domain byte with its last part only (R164). -/
def Obligations.AbsorbMarksTheLastBlockOnly : Prop :=
  ∀ (c : Params) (sch : Scheme) (a : Bank) (d : Byte),
    absorb c sch a [] d = a ∧
    (∀ blk : List Byte, 0 < blk.length → blk.length ≤ 8 →
      absorb c sch a blk d = permReduced c sch
        (a.set 0 (a.word 0 ^^^ place c.partialAlign blk ^^^ dmark c.partialAlign d blk.length))) ∧
    ∀ x y : List Byte, 8 ∣ x.length → y ≠ [] → absorb c sch a (x ++ y) d = absorb c sch (absorb c sch a x 0) y d

/-- `squeeze` returns exactly L bytes; up to 8 bytes it reads word 0 and does not permute; beyond that it permutes once
between one full read and the rest (R165). -/
def Obligations.SqueezePermutesBetweenReadsOnly : Prop :=
  ∀ (c : Params) (sch : Scheme) (a : Bank) (len : Nat),
    (squeeze c sch a len).2.length = len ∧
    (len ≤ 8 → squeeze c sch a len = (a, keystream c.partialAlign a len)) ∧
    (8 < len → squeeze c sch a len =
      ((squeeze c sch (permReduced c sch a) (len - 8)).1,
        wbytes (a.word 0) ++ (squeeze c sch (permReduced c sch a) (len - 8)).2))

/-- SQUEEZE to OBUF writes MLEN squeezed bytes at DOFF, leaves every other byte of OBUF and changes nothing else but the
bank (R170). -/
def Obligations.SqueezeToObufWritesTheOutputRegion : Prop :=
  ∀ (sch : Scheme) (bank : BankSel) (s : State), s.obuf.wf → Fits Config.params s.doff s.mlen →
    ∃ t, exec (.squeeze sch bank .obuf) s = .next t ∧
      t.bank bank = (squeeze Config.params sch (s.bank bank) s.mlen.toNat).1 ∧
      t.bank bank.other = s.bank bank.other ∧
      (∀ j < s.mlen.toNat,
        t.obuf.read (s.doff.toNat + j) = (squeeze Config.params sch (s.bank bank) s.mlen.toNat).2.getD j 0) ∧
      (∀ a, a < s.doff.toNat ∨ s.doff.toNat + s.mlen.toNat ≤ a → t.obuf.read a = s.obuf.read a) ∧
      t = { s with bankA := t.bankA, bankB := t.bankB, obuf := t.obuf, phase := .idle, done := true }

/-- SQUEEZE to TAGOUT or TEXP writes the scheme's tag length of squeezed bytes and zero after them, whatever the output
region is; no byte of memory changes (R25, R170, D31). -/
def Obligations.SqueezeToTagRegisterPadsWithZero : Prop :=
  ∀ (sch : Scheme) (bank : BankSel) (s : State) (r : Bank × List Byte),
    r = squeeze Config.params sch (s.bank bank) (tagLen sch) →
    (∃ t, exec (.squeeze sch bank .tagout) s = .next t ∧
      t.bank bank = r.1 ∧ t.bank bank.other = s.bank bank.other ∧
      (∀ i < tagLen sch, t.tagout.byte i = r.2.getD i 0) ∧ (∀ i, tagLen sch ≤ i → t.tagout.byte i = 0) ∧
      t = { s with bankA := t.bankA, bankB := t.bankB, tagout := t.tagout, phase := .idle, done := true }) ∧
    (∃ t, exec (.squeeze sch bank .texp) s = .next t ∧
      t.bank bank = r.1 ∧ t.bank bank.other = s.bank bank.other ∧
      (∀ i < tagLen sch, t.texp.byte i = r.2.getD i 0) ∧ (∀ i, tagLen sch ≤ i → t.texp.byte i = 0) ∧
      t = { s with bankA := t.bankA, bankB := t.bankB, texp := t.texp, phase := .idle, done := true })

/-- ENC writes the ciphertext of the message region at DOFF, updates the named bank, the other bank exactly when LS = 1,
and changes nothing else (R166, R171). -/
def Obligations.EncWritesCiphertextAndFeedsBanks : Prop :=
  ∀ (sch : Scheme) (bank : BankSel) (ls : Bool) (s : State) (msg : List Byte) (r : DuplexResult),
    s.obuf.wf → s.DuplexRegionsFit Config.params → s.ibuf.Holds s.moff s.mlen msg →
    r = duplexEnc Config.params sch (s.bank bank) msg ls (s.bank bank.other) →
    ∃ t, exec (.enc sch bank ls) s = .next t ∧
      t.bank bank = r.bank ∧ t.bank bank.other = (if ls then r.other else s.bank bank.other) ∧
      r.out.length = s.mlen.toNat ∧
      (∀ j < s.mlen.toNat, t.obuf.read (s.doff.toNat + j) = r.out.getD j 0) ∧
      (∀ a, a < s.doff.toNat ∨ s.doff.toNat + s.mlen.toNat ≤ a → t.obuf.read a = s.obuf.read a) ∧
      t = { s with bankA := t.bankA, bankB := t.bankB, obuf := t.obuf, phase := .idle, done := true }

/-- DEC writes the recovered plaintext at DOFF, updates the banks as ENC does, sets OUT_LOCK even for an empty message,
and changes nothing else (R167, R172). -/
def Obligations.DecWritesPlaintextAndLocksOutput : Prop :=
  ∀ (sch : Scheme) (bank : BankSel) (ls : Bool) (s : State) (msg : List Byte) (r : DuplexResult),
    s.obuf.wf → s.DuplexRegionsFit Config.params → s.ibuf.Holds s.moff s.mlen msg →
    r = duplexDec Config.params sch (s.bank bank) msg ls (s.bank bank.other) →
    ∃ t, exec (.dec sch bank ls) s = .next t ∧
      t.bank bank = r.bank ∧ t.bank bank.other = (if ls then r.other else s.bank bank.other) ∧
      r.out.length = s.mlen.toNat ∧
      (∀ j < s.mlen.toNat, t.obuf.read (s.doff.toNat + j) = r.out.getD j 0) ∧
      (∀ a, a < s.doff.toNat ∨ s.doff.toNat + s.mlen.toNat ≤ a → t.obuf.read a = s.obuf.read a) ∧
      t = { s with
        bankA := t.bankA, bankB := t.bankB, obuf := t.obuf, outLock := true, phase := .idle, done := true }

/-- COPY gives the destination bank the other bank's words, and changes nothing else (R173). -/
def Obligations.CopyMakesTheBanksEqual : Prop :=
  ∀ s : State,
    exec (.copy .a) s = .next { s with bankA := s.bankB, phase := .idle, done := true } ∧
    exec (.copy .b) s = .next { s with bankB := s.bankA, phase := .idle, done := true }

/-- AEAD_ENC initialises the main state, absorbs the AD when there is any, encrypts the message region and computes the
tag: for Elephant from the lock-step state, for ISAP over the ciphertext (R201, R203, R204). It writes the ciphertext at
DOFF and the tag, zero-padded, into TAGOUT, ends with both banks and TEXP zero, and changes nothing else (R210). -/
def Obligations.AeadEncWritesCiphertextAndTag : Prop :=
  ∀ (sch : Scheme) (s : State) (key nonce ad msg ct tag : List Byte) (main : Bank) (q : DuplexResult),
    s.obuf.wf → s.DeclaresKey → s.DeclaresNonce sch → s.AeadRegionsFit Config.params →
    key = s.key.toList → nonce = s.nonce.toList.take (nonceLen sch) →
    s.ibuf.Holds s.aoff s.alen ad → s.ibuf.Holds s.moff s.mlen msg → MainState Config.params sch key nonce ad main →
    (match sch with
      | .elephant => q = duplexEnc Config.params .elephant main msg true main ∧ ct = q.out ∧
          tag = (squeeze Config.params .elephant q.other 8).2
      | .isap => q = duplexEnc Config.params .isap main msg false main ∧ ct = q.out ∧
          IsapTagOf Config.params key nonce ct tag) →
    ∃ t, exec (.aeadEnc sch) s = .next t ∧
      ct.length = s.mlen.toNat ∧ tag.length = tagLen sch ∧
      (∀ j < s.mlen.toNat, t.obuf.read (s.doff.toNat + j) = ct.getD j 0) ∧
      (∀ a, a < s.doff.toNat ∨ s.doff.toNat + s.mlen.toNat ≤ a → t.obuf.read a = s.obuf.read a) ∧
      (∀ i < tagLen sch, t.tagout.byte i = tag.getD i 0) ∧ (∀ i, tagLen sch ≤ i → t.tagout.byte i = 0) ∧
      t = { s with
        bankA := Bank.zero, bankB := Bank.zero, texp := ByteReg.zero, tagout := t.tagout, obuf := t.obuf,
        phase := .idle, done := true }

/-- AEAD_DEC initialises the main state, absorbs the AD when there is any, decrypts the message region and computes the
expected tag: for Elephant from the lock-step state, for ISAP over the ciphertext (R202, R203, R204). With that tag in
TAGIN it releases the plaintext at DOFF with AUTH_OK; with any other it ends with AUTHENTICATION_FAILURE and all of OBUF
zero. Either way the banks and TEXP end zero, OUT_LOCK is 0 and TAGOUT is not written (R206, R210, R244). -/
def Obligations.AeadDecReleasesOrErasesPlaintext : Prop :=
  ∀ (sch : Scheme) (s : State) (key nonce ad ct pt tag : List Byte) (main : Bank) (q : DuplexResult),
    s.obuf.wf → s.DeclaresKey → s.DeclaresNonce sch → s.DeclaresTag sch → s.AeadRegionsFit Config.params →
    key = s.key.toList → nonce = s.nonce.toList.take (nonceLen sch) →
    s.ibuf.Holds s.aoff s.alen ad → s.ibuf.Holds s.moff s.mlen ct → MainState Config.params sch key nonce ad main →
    (match sch with
      | .elephant => q = duplexDec Config.params .elephant main ct true main ∧ pt = q.out ∧
          tag = (squeeze Config.params .elephant q.other 8).2
      | .isap => q = duplexDec Config.params .isap main ct false main ∧ pt = q.out ∧
          IsapTagOf Config.params key nonce ct tag) →
    ((∀ i < tagLen sch, s.tagin.byte i = tag.getD i 0) →
      ∃ t, exec (.aeadDec sch) s = .next t ∧
        (∀ j < s.mlen.toNat, t.obuf.read (s.doff.toNat + j) = pt.getD j 0) ∧
        (∀ a, a < s.doff.toNat ∨ s.doff.toNat + s.mlen.toNat ≤ a → t.obuf.read a = s.obuf.read a) ∧
        t = { s with
          bankA := Bank.zero, bankB := Bank.zero, texp := ByteReg.zero, obuf := t.obuf, authOk := true,
          outLock := false, phase := .idle, done := true }) ∧
    ((∃ i < tagLen sch, s.tagin.byte i ≠ tag.getD i 0) →
      ∃ t, exec (.aeadDec sch) s = .next t ∧ (∀ a, t.obuf.read a = 0) ∧
        t = { s with
          bankA := Bank.zero, bankB := Bank.zero, texp := ByteReg.zero, obuf := t.obuf, outLock := false,
          err := true, errcode := .authenticationFailure, errcmd := s.cmd, phase := .idle, done := true })

/-- VERIFY compares exactly the scheme's tag length of TEXP and TAGIN, uses TEXP up, and releases OBUF or zeroes it
(R205, R206, R207). -/
def Obligations.VerifyReleasesOrErasesOutput : Prop :=
  ∀ (sch : Scheme) (s : State), s.DeclaresTag sch →
    ((∀ i < tagLen sch, s.texp.byte i = s.tagin.byte i) →
      exec (.verify sch) s = .next { s with
        texp := ByteReg.zero, authOk := true, outLock := false, phase := .idle, done := true }) ∧
    ((∃ i < tagLen sch, s.texp.byte i ≠ s.tagin.byte i) →
      ∃ t, exec (.verify sch) s = .next t ∧ (∀ a, t.obuf.read a = 0) ∧
        t = { s with
          texp := ByteReg.zero, obuf := t.obuf, outLock := false, err := true, errcode := .authenticationFailure,
          errcmd := s.cmd, phase := .idle, done := true })

/-! ## The datapath -/

/-- `wbytes` is the big-endian image of a word and `words` on one word undoes it (R121). -/
def Obligations.WbytesIsTheInverseOfWords : Prop :=
  ∀ w : Word, (wbytes w).length = 8 ∧
    (∀ k < 8, (wbytes w).getD k 0 = w.extractLsb' (56 - 8 * k) 8) ∧ words (wbytes w) 1 = [w] ∧
    wbytes 0x0102030405060708 = [1, 2, 3, 4, 5, 6, 7, 8]

/-- ISAP steps (a) and (b): the constant goes into word 2 only; step (b) is a rotation of the five words (R125, R126). -/
def Obligations.IsapStepsAddConstantAndRotateWords : Prop :=
  ∀ (c : Nat) (s : Bank), c < 12 →
    (∀ i, (isapStepA (rcIsap.getD c 0) s).word i = if i = 2 then s.word 2 ^^^ rcIsap.getD c 0 else s.word i) ∧
    (∀ i, (isapStepB s).word i =
      if i < 5 then s.word i ^^^ (s.word ((i + 1) % 5) ^^^ s.word (((i + 1) % 5 + 4) % 5)) else s.word i) ∧
    (∀ i < 5, (isapStepB s).word i = s.word ((i + 1) % 5))

/-- One ISAP round, word by word: each of words 0..4 is two rotations of the next word after step (a); an ISAP
permutation leaves words 5..24, and everything when it has no round (R126, R127, R128). -/
def Obligations.IsapRoundMovesEachWordDown : Prop :=
  ∀ (k : Word) (s : Bank),
    (isapRound k s).word 0 = rotl (s.word 1) 19 ^^^ rotl (s.word 1) 28 ∧
    (isapRound k s).word 1 = rotl (s.word 2 ^^^ k) 61 ^^^ rotl (s.word 2 ^^^ k) 39 ∧
    (isapRound k s).word 2 = rotl (s.word 3) 1 ^^^ rotl (s.word 3) 6 ∧
    (isapRound k s).word 3 = rotl (s.word 4) 10 ^^^ rotl (s.word 4) 17 ∧
    (isapRound k s).word 4 = rotl (s.word 0) 7 ^^^ rotl (s.word 0) 41 ∧
    ∀ (c : Params) (n : Nat), (∀ i, 5 ≤ i → (isapPerm c n s).word i = s.word i) ∧ isapPerm c 0 s = s

/-- The ISAP permutation as written is not injective, for any number of rounds and any parameters (R127). -/
def Obligations.IsapPermutationIsNotInjective : Prop :=
  ∀ (c : Params) (n : Nat), 0 < n → ∃ a b : Bank, a ≠ b ∧ isapPerm c n a = isapPerm c n b

/-- Any 46 or more consecutive ISAP rounds send every state of words 0..4 to the same value (R127). -/
def Obligations.FortySixIsapRoundsForgetTheState : Prop :=
  ∀ (ks : List Word) (a b : Bank), 46 ≤ ks.length →
    ∀ i < 5, (ks.foldl (fun s k => isapRound k s) a).word i = (ks.foldl (fun s k => isapRound k s) b).word i

/-- The Elephant steps θ, χ and ι, lane by lane (R129, R131, R132), and the round: θ, ρ/π, χ, ι in that order (R133). -/
def Obligations.ElephantStepsLaneByLane : Prop :=
  ∀ (a : Bank) (k : Word) (x y : Nat), x < 5 → y < 5 →
    (∀ (col d : Nat → Word),
      (∀ z < 5, col z = a.word z ^^^ a.word (z + 5) ^^^ a.word (z + 10) ^^^ a.word (z + 15) ^^^ a.word (z + 20)) →
      (∀ z < 5, d z = col ((z + 4) % 5) ^^^ rotl (col ((z + 1) % 5)) 1) →
      (theta a).word (x + 5 * y) = a.word (x + 5 * y) ^^^ d x) ∧
    (chi a).word (x + 5 * y) =
      a.word (x + 5 * y) ^^^ (~~~(a.word ((x + 1) % 5 + 5 * y)) &&& a.word ((x + 2) % 5 + 5 * y)) ∧
    (∀ i, (iota k a).word i = if i = 0 then a.word 0 ^^^ k else a.word i) ∧
    ∀ v, elephantRound v k a = iota k (chi (rhoPi v (theta a)))

/-- ρ/π under each of the four readings, at every lane; `src` is a bijection that fixes only (0,0), so every lane of the
new grid is defined once, every rotation is by at most 12, and lane (0,0) keeps its value (R130). -/
def Obligations.RhoPiUnderItsFourReadings : Prop :=
  ∀ (a : Bank) (x y : Nat), x < 5 → y < 5 →
    (rhoPi .gd a).word (x + 5 * y) = rotl (a.word ((x + 3 * y) % 5 + 5 * x)) (x + 2 * y) ∧
    (rhoPi .gs a).word (x + 5 * y) = rotl (a.word ((x + 3 * y) % 5 + 5 * x)) ((x + 3 * y) % 5 + 2 * x) ∧
    (rhoPi .ss a).word ((x + 3 * y) % 5 + 5 * x) = rotl (a.word (x + 5 * y)) (x + 2 * y) ∧
    (rhoPi .sd a).word ((x + 3 * y) % 5 + 5 * x) = rotl (a.word (x + 5 * y)) ((x + 3 * y) % 5 + 2 * x) ∧
    ((x + 3 * y) % 5 + 5 * x = x + 5 * y ↔ x = 0 ∧ y = 0) ∧
    (∀ x' y', x' < 5 → y' < 5 → (x + 3 * y) % 5 + 5 * x = (x' + 3 * y') % 5 + 5 * x' → x = x' ∧ y = y') ∧
    x + 2 * y ≤ 12 ∧ (∀ v, (rhoPi v a).word 0 = a.word 0)

/-- The constant index under both start modes; at 12 rounds they agree, so a 12-round permutation does not depend on
RC_START_MODE (R124). The permutations run rounds 0 to n-1 in order, each with the table's entry at that index, and no
round when n = 0; the two tables (R122, R123, R128, R133). -/
def Obligations.RoundConstantIndex : Prop :=
  ∀ (c : Params) (m : RcStartMode) (r n : Nat) (ci ce : Nat → Word),
    (∀ k < 12, ci k = [0xf0, 0xe1, 0xd2, 0xc3, 0xb4, 0xa5, 0x96, 0x87, 0x78, 0x69, 0x5a, 0x4b].getD k 0) →
    (∀ k < 12, ce k = [0x0000000000000001, 0x0000000000008082, 0x800000000000808A, 0x8000000080008000,
      0x000000000000808B, 0x0000000080000001, 0x8000000080008081, 0x8000000000008009, 0x000000000000008A,
      0x0000000000000088, 0x0000000080008009, 0x000000008000000A].getD k 0) →
    1 ≤ n → n ≤ 12 → r < n →
    rcIndex { c with rcStartMode := .first } r n = r ∧
    rcIndex { c with rcStartMode := .last } r n = 12 - n + r ∧
    rcIndex c r n ≤ 11 ∧ rcIndex c r 12 = r ∧
    (∀ a, elephantPerm { c with rcStartMode := m } 12 a = elephantPerm c 12 a) ∧
    (∀ a, isapPerm { c with rcStartMode := m } 12 a = isapPerm c 12 a) ∧
    (∀ f : Nat → Bank, (∀ k < n, f (k + 1) = elephantRound c.piRhoVariant (ce (rcIndex c k n)) (f k)) →
      elephantPerm c n (f 0) = f n ∧ elephantPerm c 0 (f 0) = f 0) ∧
    (∀ f : Nat → Bank, (∀ k < n, f (k + 1) = isapRound (ci (rcIndex c k n)) (f k)) →
      isapPerm c n (f 0) = f n ∧ isapPerm c 0 (f 0) = f 0)

/-- The rate window: a chunk of n bytes takes window bytes 0..n-1 under MSB and 8-n..7 under LSB, so `place` is the
StateCodec's word of the chunk zero-padded behind or in front, `ks` reads those bytes, and the domain byte stands at the
chunk's last one, `d << (64 - 8n)` or `d`; a full block does not depend on the alignment; after the feedback XOR the
window holds the ciphertext bytes (R160, R161, R166). -/
def Obligations.RateWindowOfAChunk : Prop :=
  ∀ (al : PartialAlign) (a : Bank) (d : Byte) (blk : List Byte), 0 < blk.length → blk.length ≤ 8 →
    words blk 1 = [place .msb blk] ∧
    words (List.replicate (8 - blk.length) 0 ++ blk) 1 = [place .lsb blk] ∧
    keystream .msb a blk.length = (wbytes (a.word 0)).take blk.length ∧
    keystream .lsb a blk.length = (wbytes (a.word 0)).drop (8 - blk.length) ∧
    dmark .msb d blk.length = d.setWidth 64 <<< (64 - 8 * blk.length) ∧
    dmark .lsb d blk.length = d.setWidth 64 ∧
    (blk.length = 8 → place al blk = place .msb blk ∧ keystream al a 8 = wbytes (a.word 0) ∧
      dmark al d 8 = d.setWidth 64) ∧
    keystream al (a.set 0 (a.word 0 ^^^ place al blk)) blk.length = xorBytes blk (keystream al a blk.length)

/-- The duplex, block by block: a block goes out XORed with the keystream of its bank, cut to its length; the plaintext
block, given or recovered, is fed back into word 0 before the permutation, and into the second bank exactly when the
lock-step bit is set; the rest of the string goes on from there (R162, R166, R167). -/
def Obligations.DuplexFeedsThePlaintextBack : Prop :=
  ∀ (c : Params) (sch : Scheme) (a b : Bank) (lock : Bool) (blk rest p : List Byte) (r q : DuplexResult),
    0 < blk.length → blk.length ≤ 8 → (rest ≠ [] → blk.length = 8) →
    p = xorBytes blk (keystream c.partialAlign a blk.length) →
    r = duplexEnc c sch (permReduced c sch (a.set 0 (a.word 0 ^^^ place c.partialAlign blk))) rest lock
      (if lock then permReduced c sch (b.set 0 (b.word 0 ^^^ place c.partialAlign blk)) else b) →
    q = duplexDec c sch (permReduced c sch (a.set 0 (a.word 0 ^^^ place c.partialAlign p))) rest lock
      (if lock then permReduced c sch (b.set 0 (b.word 0 ^^^ place c.partialAlign p)) else b) →
    duplexEnc c sch a [] lock b = ⟨a, b, []⟩ ∧ duplexDec c sch a [] lock b = ⟨a, b, []⟩ ∧
    duplexEnc c sch a (blk ++ rest) lock b = ⟨r.bank, r.other, p ++ r.out⟩ ∧
    duplexDec c sch a (blk ++ rest) lock b = ⟨q.bank, q.other, p ++ q.out⟩

/-- Duplex decryption of the ciphertext returns the plaintext and leaves the banks encryption left (R166, R167). -/
def Obligations.DuplexDecInvertsDuplexEnc : Prop :=
  ∀ (c : Params) (sch : Scheme) (a b : Bank) (p : List Byte) (lock : Bool) (r : DuplexResult),
    r = duplexEnc c sch a p lock b →
    r.out.length = p.length ∧ duplexDec c sch a r.out lock b = ⟨r.bank, r.other, p⟩

/-- The Elephant tag strategy: the tag state runs in lock-step, so it ends equal to the main state, and the tag is the
image of its word 0 (R203). -/
def Obligations.ElephantTagStateRunsInLockStep : Prop :=
  ∀ (c : Params) (a : Bank) (data : List Byte),
    (duplexEnc c .elephant a data true a).other = (duplexEnc c .elephant a data true a).bank ∧
    (duplexDec c .elephant a data true a).other = (duplexDec c .elephant a data true a).bank ∧
    squeeze c .elephant (duplexEnc c .elephant a data true a).other 8 =
      ((duplexEnc c .elephant a data true a).bank, wbytes ((duplexEnc c .elephant a data true a).bank.word 0))

/-- The ISAP tag of a ciphertext of at most 24 bytes depends neither on its bytes nor on the tag domain byte, only on
its number of blocks, the key and the nonce (R204). -/
def Obligations.ShortIsapTagIgnoresTheCiphertext : Prop :=
  ∀ (c : Params) (d : Byte) (key nonce x y : List Byte), nb x.length = nb y.length → x.length ≤ 24 → y.length ≤ 24 →
    isapTag c key nonce x = isapTag { c with tagDomainI := d } key nonce y

/-- The round trip: AEAD_DEC of what AEAD_ENC wrote, with the same key, nonce and AD, wherever the strings lie, returns
the plaintext with AUTH_OK = 1 (R202). -/
def Obligations.AeadDecOfAeadEncReturnsThePlaintext : Prop :=
  ∀ (sch : Scheme) (s t u : State), s.obuf.wf → s.DeclaresKey → s.DeclaresNonce sch →
    s.AeadRegionsFit Config.params → exec (.aeadEnc sch) s = .next t →
    u.obuf.wf → u.DeclaresKey → u.DeclaresNonce sch → u.DeclaresTag sch → u.AeadRegionsFit Config.params →
    u.key = s.key → (∀ i < nonceLen sch, u.nonce.byte i = s.nonce.byte i) →
    u.alen = s.alen → (∀ j < s.alen.toNat, u.ibuf.read (u.aoff.toNat + j) = s.ibuf.read (s.aoff.toNat + j)) →
    u.mlen = s.mlen → (∀ j < s.mlen.toNat, u.ibuf.read (u.moff.toNat + j) = t.obuf.read (s.doff.toNat + j)) →
    (∀ i < tagLen sch, u.tagin.byte i = t.tagout.byte i) →
    ∃ v, exec (.aeadDec sch) u = .next v ∧ v.authOk = true ∧ v.outLock = false ∧ v.err = u.err ∧
      ∀ j < s.mlen.toNat, v.obuf.read (u.doff.toNat + j) = s.ibuf.read (s.moff.toNat + j)

/-! ## The host port -/

/-- An access that is not an aligned 32-bit one is refused: the bus error response, read data 0, and nothing changed
(R61, R258; that the block goes on is log 6). -/
def Obligations.UnsupportedAccessChangesNothing : Prop :=
  ∀ (s : State) (width : AccessWidth) (off : BitVec 14) (v : Reg) (rest : List PortEvent),
    (width ≠ .word ∨ off.toNat % 4 ≠ 0) →
    (s.port = .read width off :: rest →
      step s = .next { s with port := rest, response := some .busError }) ∧
    (s.port = .write width off v :: rest →
      step s = .next { s with port := rest, response := some .busError }) ∧
    PortResponse.busError.data = 0

/-- A supported read has no side effect and returns the value of `hostRead` (R70; the field that holds the answer is the
model's, log 5). -/
def Obligations.ReadsHaveNoSideEffect : Prop :=
  ∀ (s : State) (off : BitVec 14) (rest : List PortEvent), off.toNat % 4 = 0 → s.port = .read .word off :: rest →
    step s = .next { s with
      port := rest, response := some (.readData (hostRead Config.params s off.toNat)) } ∧
    ∀ resp, hostRead Config.params { s with port := rest, response := resp } off.toNat =
      hostRead Config.params s off.toNat

/-- The busy window: ID, VERSION, CTRL, STATUS, DOMCFG, RNDCFG, BUFCFG and PARAMCFG read as when idle, but for the bit
BUSY, and every other offset reads 0; CTRL and STATUS are written as when idle, a write to CMD, LENS, a region register,
KEY, NONCE, TAGIN or IBUF only sets OVR, and any other write changes nothing (R68). -/
def Obligations.BusyWindowDropsOperandAccesses : Prop :=
  ∀ (s : State) (off : Nat) (v : Reg), s.phase ≠ .idle → off % 4 = 0 →
    (off ∉ [0x000, 0x004, 0x008, 0x00C, 0x02C, 0x030, 0x034, 0x03C] → hostRead Config.params s off = 0) ∧
    (off ∈ [0x000, 0x004, 0x008, 0x02C, 0x030, 0x034, 0x03C] →
      hostRead Config.params s off = hostRead Config.params { s with phase := .idle } off) ∧
    hostRead Config.params s 0x00C = hostRead Config.params { s with phase := .idle } 0x00C ||| 1 ∧
    hostWrite Config.params s 0x008 v = s.writeCtrl v ∧ hostWrite Config.params s 0x00C v = s.writeStatus v ∧
    ((0x010 ≤ off ∧ off < 0x02C) ∨ (0x040 ≤ off ∧ off < 0x070) ∨
        (0x1000 ≤ off ∧ off < 0x1000 + Config.params.bufBytes) →
      hostWrite Config.params s off v = { s with ovr := true }) ∧
    (off < 0x008 ∨ (0x02C ≤ off ∧ off < 0x040) ∨ (0x070 ≤ off ∧ off < 0x1000) ∨
        0x1000 + Config.params.bufBytes ≤ off →
      hostWrite Config.params s off v = s)

/-- While OUT_LOCK = 1 every host read in OBUF returns 0; the block's own reads do not see the lock; with OUT_LOCK = 0 and
the block idle the read returns the four bytes, first in bits 31:24 (R65, R67). -/
def Obligations.OutLockWithholdsObufFromTheHostOnly : Prop :=
  ∀ (s : State) (k : Nat), 4 * k < Config.params.bufBytes →
    (s.outLock = true → hostRead Config.params s (0x2000 + 4 * k) = 0) ∧
    (∀ l, ({ s with outLock := l } : State).absorbBytes .obuf = s.absorbBytes .obuf) ∧
    (s.outLock = false → s.phase = .idle → ∀ j < 4,
      (hostRead Config.params s (0x2000 + 4 * k)).extractLsb' (24 - 8 * j) 8 = s.obuf.read (4 * k + j))

/-- While idle, a write of KEYk, NONCEk or TAGINk sets bytes 4k..4k+3 of that register, first byte most significant; LENS
keeps its three fields and a region register bits 15:0; nothing else changes. KEY and CMD read 0, LENS reads
`value & 0x001F1F1F`, a region register `value & 0xFFFF`, NONCE, TAGIN and TAGOUT their four bytes, ERRCMD its word (R22
to R25, R27, R28, R31, R32, R64, R70). -/
def Obligations.OperandRegistersHoldWhatIsWritten : Prop :=
  ∀ (s : State) (k : Nat) (v : Reg), s.phase = .idle → k < 4 →
    (∃ r, hostWrite Config.params s (0x040 + 4 * k) v = { s with key := r } ∧
      ∀ i < 16, r.byte i = if i / 4 = k then v.extractLsb' (24 - 8 * (i % 4)) 8 else s.key.byte i) ∧
    (∃ r, hostWrite Config.params s (0x050 + 4 * k) v = { s with nonce := r } ∧
      hostRead Config.params { s with nonce := r } (0x050 + 4 * k) = v ∧
      ∀ i < 16, r.byte i = if i / 4 = k then v.extractLsb' (24 - 8 * (i % 4)) 8 else s.nonce.byte i) ∧
    (∃ r, hostWrite Config.params s (0x060 + 4 * k) v = { s with tagin := r } ∧
      hostRead Config.params { s with tagin := r } (0x060 + 4 * k) = v ∧
      ∀ i < 16, r.byte i = if i / 4 = k then v.extractLsb' (24 - 8 * (i % 4)) 8 else s.tagin.byte i) ∧
    hostWrite Config.params s 0x014 v = { s with
      lensKey := v.extractLsb' 0 5, lensNonce := v.extractLsb' 8 5, lensTag := v.extractLsb' 16 5 } ∧
    hostWrite Config.params s 0x018 v = { s with aoff := v.setWidth 16 } ∧
    hostWrite Config.params s 0x01C v = { s with alen := v.setWidth 16 } ∧
    hostWrite Config.params s 0x020 v = { s with moff := v.setWidth 16 } ∧
    hostWrite Config.params s 0x024 v = { s with mlen := v.setWidth 16 } ∧
    hostWrite Config.params s 0x028 v = { s with doff := v.setWidth 16 } ∧
    hostRead Config.params (hostWrite Config.params s 0x014 v) 0x014 = v &&& 0x001F1F1F ∧
    (∀ off ∈ [0x018, 0x01C, 0x020, 0x024, 0x028],
      hostRead Config.params (hostWrite Config.params s off v) off = v &&& 0x0000FFFF) ∧
    hostRead Config.params s (0x040 + 4 * k) = 0 ∧ hostRead Config.params s 0x010 = 0 ∧
    hostRead Config.params s 0x038 = s.errcmd ∧
    ∀ j < 4,
      (hostRead Config.params s (0x050 + 4 * k)).extractLsb' (24 - 8 * j) 8 = s.nonce.byte (4 * k + j) ∧
      (hostRead Config.params s (0x060 + 4 * k)).extractLsb' (24 - 8 * j) 8 = s.tagin.byte (4 * k + j) ∧
      (hostRead Config.params s (0x070 + 4 * k)).extractLsb' (24 - 8 * j) 8 = s.tagout.byte (4 * k + j)

/-- While idle, a write of an IBUF word is read back, sets its four bytes big-endian, leaves every other byte and every
other part of the state (R65). -/
def Obligations.IbufWordHoldsWhatIsWritten : Prop :=
  ∀ (s : State) (k : Nat) (v : Reg), s.phase = .idle → s.ibuf.wf → 4 * k < Config.params.bufBytes →
    ∃ m, hostWrite Config.params s (0x1000 + 4 * k) v = { s with ibuf := m } ∧ m.wf ∧
      (∀ j < 4, Memory.read m (4 * k + j) = v.extractLsb' (24 - 8 * j) 8) ∧
      (∀ a, a < 4 * k ∨ 4 * k + 4 ≤ a → Memory.read m a = s.ibuf.read a) ∧
      hostRead Config.params { s with ibuf := m } (0x1000 + 4 * k) = v

/-- No host read depends on KEY, TEXP, the banks or the command latch (R20, R22, R26, R31, R253). -/
def Obligations.HostReadsRevealNoSecret : Prop :=
  ∀ (s : State) (off : Nat) (bankA bankB : Bank) (key texp : ByteReg) (cmd : Reg),
    hostRead Config.params
      { s with bankA := bankA, bankB := bankB, key := key, texp := texp, cmd := cmd } off =
      hostRead Config.params s off

/-- STATUS reads its fields in their places, CTRL reads IRQ_EN in bit 0 and takes it from a write without SRST, and `irq`
is IRQ_EN & (DONE | ERR) (R29, R30, R40). -/
def Obligations.StatusFieldsAndInterrupt : Prop :=
  ∀ (s : State) (w ctrl : Reg), w = hostRead Config.params s 0x00C → ctrl = hostRead Config.params s 0x008 →
    (w.getLsbD 0 = true ↔ s.phase ≠ .idle) ∧ w.getLsbD 1 = s.done ∧ w.getLsbD 2 = s.err ∧ w.getLsbD 3 = s.authOk ∧
    w.getLsbD 4 = s.outLock ∧ w.getLsbD 5 = s.ovr ∧ w.extractLsb' 6 2 = 0 ∧ w.extractLsb' 8 4 = s.errcode.code ∧
    w.extractLsb' 12 20 = 0 ∧ ctrl.getLsbD 0 = s.irqEn ∧ ctrl.extractLsb' 1 31 = 0 ∧
    s.irq = (ctrl.getLsbD 0 && (w.getLsbD 1 || w.getLsbD 2)) ∧
    ∀ v : Reg, v.getLsbD 1 = false → hostWrite Config.params s 0x008 v = { s with irqEn := v.getLsbD 0 }

/-- A STATUS write, idle or busy, clears DONE, OVR and ERR where it has a 1, ERRCODE and ERRCMD with ERR, and changes
nothing else; the write 0x26 clears all three (R30, R250). -/
def Obligations.StatusWriteClearsWhereOne : Prop :=
  ∀ (s : State) (v : Reg), ∃ t, hostWrite Config.params s 0x00C v = t ∧
    (t.done = true ↔ s.done = true ∧ v.getLsbD 1 = false) ∧ (t.ovr = true ↔ s.ovr = true ∧ v.getLsbD 5 = false) ∧
    (t.err = true ↔ s.err = true ∧ v.getLsbD 2 = false) ∧
    (v.getLsbD 2 = true → t.errcode = .none ∧ t.errcmd = 0) ∧
    (v.getLsbD 2 = false → t.errcode = s.errcode ∧ t.errcmd = s.errcmd) ∧
    t = { s with done := t.done, ovr := t.ovr, err := t.err, errcode := t.errcode, errcmd := t.errcmd } ∧
    (v = 0x26 → t.done = false ∧ t.err = false ∧ t.ovr = false)

/-- The constant registers and the offsets the map does not list: their values in every state, for any parameters and at
this machine's, which stand at the spec's defaults by a choice of the model (log 2). A write to them, to ERRCMD, to
TAGOUT or to OBUF changes nothing, idle or busy (R33 to R38, R63). -/
def Obligations.ConstantRegistersAndUnmappedOffsets : Prop :=
  ∀ (c : Params) (s : State) (v : Reg), c.Legal →
    hostRead c s 0x000 = 0x4B475044 ∧ hostRead c s 0x004 = 0x00010000 ∧
    (hostRead c s 0x02C).extractLsb' 0 8 = c.adDomainE ∧ (hostRead c s 0x02C).extractLsb' 8 8 = c.tagDomainE ∧
    (hostRead c s 0x02C).extractLsb' 16 8 = c.adDomainI ∧ (hostRead c s 0x02C).extractLsb' 24 8 = c.tagDomainI ∧
    (hostRead c s 0x030).toNat = 12 + 16 * c.elephantRedRounds + 256 * 12 + 4096 * 6 ∧
    (hostRead c s 0x034).toNat = c.bufBytes ∧
    hostRead c s 0x03C =
      (match c.rcStartMode with | .first => 0 | .last => 1) +
      (match c.piRhoVariant with | .gd => 0 | .gs => 2 | .ss => 4 | .sd => 6) +
      (match c.partialAlign with | .msb => 0 | .lsb => 8) ∧
    hostRead Config.params s 0x030 = 0x00006CCC ∧ hostRead Config.params s 0x034 = 0x00000800 ∧
    hostRead Config.params s 0x03C = 0x00000000 ∧
    (∀ off ∈ [0x000, 0x004, 0x02C, 0x030, 0x034, 0x038, 0x03C, 0x070, 0x074, 0x078, 0x07C], hostWrite c s off v = s) ∧
    (∀ k, 4 * k < c.bufBytes → hostWrite c s (0x2000 + 4 * k) v = s) ∧
    (∀ off, (0x080 ≤ off ∧ off < 0x1000) ∨ (0x1000 + c.bufBytes ≤ off ∧ off < 0x2000) ∨ 0x2000 + c.bufBytes ≤ off →
      hostRead c s off = 0 ∧ hostWrite c s off v = s)

/-! ## Reset and the whole machine -/

/-- Both resets, in any phase, take every element of R42 to its reset value, start the clearing period and discard the
IRQ_EN bit of the write; the end of the clearing period sets no DONE and raises no interrupt (R29, R270, R271, R272;
the turn that ends it is the model's, log 4; no answer stands after `rst`, log 5). -/
def Obligations.ResetErasesEverything : Prop :=
  ∀ (s : State) (rest : List PortEvent) (v : Reg),
    (s.port = .rst :: rest → step s = .next { State.reset with port := rest }) ∧
    (s.port = .write .word 0x008 v :: rest → v.getLsbD 1 = true →
      step s = .next { State.reset with port := rest, response := some .writeDone }) ∧
    State.reset.Erased ∧ State.reset.phase = .clearReset ∧ State.reset.busy = true ∧
    (State.reset.lensKey = 0 ∧ State.reset.lensNonce = 0 ∧ State.reset.lensTag = 0) ∧
    (State.reset.aoff = 0 ∧ State.reset.alen = 0 ∧ State.reset.moff = 0 ∧ State.reset.mlen = 0 ∧
      State.reset.doff = 0) ∧
    (State.reset.irqEn = false ∧ State.reset.done = false ∧ State.reset.err = false ∧ State.reset.authOk = false ∧
      State.reset.outLock = false ∧ State.reset.ovr = false ∧ State.reset.errcode = .none) ∧
    hostRead Config.params State.reset 0x00C = 0x00000001 ∧
    hostRead Config.params State.reset 0x008 = 0 ∧ State.reset.errcmd = 0 ∧ State.reset.cmd = 0 ∧
    (s.phase = .clearReset → s.EngineTurn rest → step s = .next { s with port := rest, phase := .idle })

/-- The invariant holds right after reset, for any parameters (R42, R271). -/
def Obligations.ResetStateMeetsTheInvariant : Prop := ∀ c : Params, Inv c State.reset

/-- Every step from every state that meets the invariant ends in a state that meets it, on this machine and on the block
with any legal parameters (R6, R32, R38, R206, R240, R247, R248, R271). -/
def Obligations.StepKeepsTheInvariant : Prop :=
  (∀ s t : State, Inv Config.params s → step s = .next t → Inv Config.params t) ∧
  ∀ (c : Params) (s t : State), c.Legal → Inv c s → stepAt c s = .next t → Inv c t

/-- The withholding of OBUF ends only by a reset, by CLEAR, by a mismatching verify step, all with OBUF zero, or by a
matching verify step (R207, R276). -/
def Obligations.OutLockEndsOnlyByVerificationClearOrReset : Prop :=
  ∀ s t : State, step s = .next t → s.outLock = true → t.outLock = false →
    ((∀ a, t.obuf.read a = 0) ∧
      ((∃ rest, s.port = .rst :: rest) ∨
       (∃ v rest, s.port = .write .word 0x008 v :: rest ∧ v.getLsbD 1 = true) ∨
       (s.phase = .run ∧ (decode s.cmd = .ok .clear ∨
         ∃ sch, (decode s.cmd = .ok (.verify sch) ∨ decode s.cmd = .ok (.aeadDec sch)) ∧
           t.errcode = .authenticationFailure)))) ∨
    (s.phase = .run ∧ t.authOk = true ∧ t.texp = ByteReg.zero ∧
      ∃ sch, (decode s.cmd = .ok (.verify sch) ∧ t.obuf = s.obuf ∧ ∀ i < tagLen sch, s.texp.byte i = s.tagin.byte i) ∨
        decode s.cmd = .ok (.aeadDec sch))

/-- KEY changes only by a host write of KEY0..KEY3 while idle, by CLEAR and by reset (R22). -/
def Obligations.KeyChangesOnlyByWriteClearOrReset : Prop :=
  ∀ s t : State, step s = .next t → t.key ≠ s.key →
    (s.phase = .idle ∧ ∃ off v rest, s.port = .write .word off v :: rest ∧ 0x040 ≤ off.toNat ∧ off.toNat < 0x050) ∨
    (t.key = ByteReg.zero ∧
      ((∃ rest, s.port = .rst :: rest) ∨
       (∃ v rest, s.port = .write .word 0x008 v :: rest ∧ v.getLsbD 1 = true) ∨
       (s.phase = .run ∧ decode s.cmd = .ok .clear)))

/-- AUTH_OK rises only at the completion of VERIFY or AEAD_DEC whose expected tag, all `tagLen(s)` bytes of it, is TAGIN
(R30, R202, R206). -/
def Obligations.AuthOkRisesOnlyOnAMatchingTag : Prop :=
  ∀ s t : State, step s = .next t → s.authOk = false → t.authOk = true →
    s.phase = .run ∧ t.phase = .idle ∧ ∃ sch,
      (decode s.cmd = .ok (.verify sch) ∧ ∀ i < tagLen sch, s.texp.byte i = s.tagin.byte i) ∨
      (decode s.cmd = .ok (.aeadDec sch) ∧ ∀ i < tagLen sch, s.tagin.byte i =
        (aeadDecrypt Config.params sch s.keyBytes (s.nonceBytes sch) s.adBytes s.messageBytes).2.getD i 0)

/-- Latency is independent of data: two states in which a word's pre-checks end alike, with the same MLEN and ALEN where
the command uses them, take the same number of cycles for it, whatever their offsets, key, nonce, tags, buffers, banks
and status; with the same LENS and regions the pre-checks do end alike; and the fields BANK, LS and DOM do not enter
(R277). That the number is an opaque function of what R277 allows is the model's (log 12), and so is which commands use
MLEN (log 15). -/
def Obligations.LatencyIsIndependentOfData : Prop :=
  ∀ (c : Params) (w : Reg) (s t : State),
    ((usesMlen w = true → s.mlen = t.mlen) → (usesAlen w = true → s.alen = t.alen) →
      preCheckWord c w s = preCheckWord c w t → commandLatency c w s = commandLatency c w t) ∧
    (s.lensKey = t.lensKey → s.lensNonce = t.lensNonce → s.lensTag = t.lensTag → s.aoff = t.aoff →
      s.alen = t.alen → s.moff = t.moff → s.mlen = t.mlen → s.doff = t.doff →
      preCheckWord c w s = preCheckWord c w t) ∧
    ∀ (sch : Scheme) (bank bank' : BankSel),
      (∀ sfx, commandLatency c (encode (.init sch bank sfx)) s = commandLatency c (encode (.init sch bank' sfx)) s) ∧
      (∀ src d d', commandLatency c (encode (.absorb sch bank src d)) s =
        commandLatency c (encode (.absorb sch bank' src d')) s) ∧
      (∀ dest, commandLatency c (encode (.squeeze sch bank dest)) s =
        commandLatency c (encode (.squeeze sch bank' dest)) s) ∧
      (∀ ls ls', commandLatency c (encode (.enc sch bank ls)) s = commandLatency c (encode (.enc sch bank' ls')) s ∧
        commandLatency c (encode (.dec sch bank ls)) s = commandLatency c (encode (.dec sch bank' ls')) s) ∧
      (∀ rnd : BitVec 4, rnd.toNat ≤ 12 →
        commandLatency c (encode (.permute sch bank rnd)) s = commandLatency c (encode (.permute sch bank' rnd)) s) ∧
      commandLatency c (encode (.copy bank)) s = commandLatency c (encode (.copy bank')) s
end

