-- ==== Sys2Proof/Laws/State.lean ====
section
/-!
SUPPORT. One lemma per field per named update of `State`, each true by `rfl` (after a split on the selector where the
update has one), so that no proof unfolds a record update.
-/

namespace Sys2Proof.Machine

/-! ## Selecting a bank -/

@[simp] theorem BankSel.other_other (sel : BankSel) : sel.other.other = sel := by cases sel <;> rfl

theorem BankSel.other_ne (sel : BankSel) : sel.other ≠ sel := by cases sel <;> decide

@[simp] theorem State.bank_a (s : State) : s.bank .a = s.bankA := rfl

@[simp] theorem State.bank_b (s : State) : s.bank .b = s.bankB := rfl

@[simp] theorem State.setBank_a (s : State) (v : Bank) : s.setBank .a v = { s with bankA := v } := rfl

@[simp] theorem State.setBank_b (s : State) (v : Bank) : s.setBank .b v = { s with bankB := v } := rfl

@[simp] theorem State.setBank_bank (s : State) (sel : BankSel) (v : Bank) : (s.setBank sel v).bank sel = v := by
  cases sel <;> rfl

@[simp] theorem State.setBank_bank_other (s : State) (sel : BankSel) (v : Bank) :
    (s.setBank sel v).bank sel.other = s.bank sel.other := by
  cases sel <;> rfl

@[simp] theorem ErrorCode.isError_none : ErrorCode.isError .none = false := rfl

@[simp] theorem ErrorCode.isError_iff (e : ErrorCode) : e.isError = true ↔ e ≠ .none := by cases e <;> decide

/-! ## `State.complete` -/

@[simp] theorem State.complete_bankA (s : State) (e : ErrorCode) : (s.complete e).bankA = s.bankA := rfl
@[simp] theorem State.complete_bankB (s : State) (e : ErrorCode) : (s.complete e).bankB = s.bankB := rfl
@[simp] theorem State.complete_key (s : State) (e : ErrorCode) : (s.complete e).key = s.key := rfl
@[simp] theorem State.complete_nonce (s : State) (e : ErrorCode) : (s.complete e).nonce = s.nonce := rfl
@[simp] theorem State.complete_tagin (s : State) (e : ErrorCode) : (s.complete e).tagin = s.tagin := rfl
@[simp] theorem State.complete_tagout (s : State) (e : ErrorCode) : (s.complete e).tagout = s.tagout := rfl
@[simp] theorem State.complete_texp (s : State) (e : ErrorCode) : (s.complete e).texp = s.texp := rfl
@[simp] theorem State.complete_lensKey (s : State) (e : ErrorCode) : (s.complete e).lensKey = s.lensKey := rfl
@[simp] theorem State.complete_lensNonce (s : State) (e : ErrorCode) : (s.complete e).lensNonce = s.lensNonce := rfl
@[simp] theorem State.complete_lensTag (s : State) (e : ErrorCode) : (s.complete e).lensTag = s.lensTag := rfl
@[simp] theorem State.complete_aoff (s : State) (e : ErrorCode) : (s.complete e).aoff = s.aoff := rfl
@[simp] theorem State.complete_alen (s : State) (e : ErrorCode) : (s.complete e).alen = s.alen := rfl
@[simp] theorem State.complete_moff (s : State) (e : ErrorCode) : (s.complete e).moff = s.moff := rfl
@[simp] theorem State.complete_mlen (s : State) (e : ErrorCode) : (s.complete e).mlen = s.mlen := rfl
@[simp] theorem State.complete_doff (s : State) (e : ErrorCode) : (s.complete e).doff = s.doff := rfl
@[simp] theorem State.complete_irqEn (s : State) (e : ErrorCode) : (s.complete e).irqEn = s.irqEn := rfl
@[simp] theorem State.complete_done (s : State) (e : ErrorCode) : (s.complete e).done = true := rfl
@[simp] theorem State.complete_err (s : State) (e : ErrorCode) : (s.complete e).err = (e.isError || s.err) := rfl
@[simp] theorem State.complete_authOk (s : State) (e : ErrorCode) : (s.complete e).authOk = s.authOk := rfl
@[simp] theorem State.complete_outLock (s : State) (e : ErrorCode) : (s.complete e).outLock = s.outLock := rfl
@[simp] theorem State.complete_ovr (s : State) (e : ErrorCode) : (s.complete e).ovr = s.ovr := rfl
@[simp] theorem State.complete_errcode (s : State) (e : ErrorCode) :
    (s.complete e).errcode = (if e.isError then e else s.errcode) := rfl
@[simp] theorem State.complete_errcmd (s : State) (e : ErrorCode) :
    (s.complete e).errcmd = (if e.isError then s.cmd else s.errcmd) := rfl
@[simp] theorem State.complete_cmd (s : State) (e : ErrorCode) : (s.complete e).cmd = s.cmd := rfl
@[simp] theorem State.complete_phase (s : State) (e : ErrorCode) : (s.complete e).phase = .idle := rfl
@[simp] theorem State.complete_ibuf (s : State) (e : ErrorCode) : (s.complete e).ibuf = s.ibuf := rfl
@[simp] theorem State.complete_obuf (s : State) (e : ErrorCode) : (s.complete e).obuf = s.obuf := rfl
@[simp] theorem State.complete_port (s : State) (e : ErrorCode) : (s.complete e).port = s.port := rfl
@[simp] theorem State.complete_response (s : State) (e : ErrorCode) : (s.complete e).response = s.response := rfl

/-! ## `State.finish` -/

@[simp] theorem State.finish_bankA (s : State) : s.finish.bankA = s.bankA := rfl
@[simp] theorem State.finish_bankB (s : State) : s.finish.bankB = s.bankB := rfl
@[simp] theorem State.finish_key (s : State) : s.finish.key = s.key := rfl
@[simp] theorem State.finish_nonce (s : State) : s.finish.nonce = s.nonce := rfl
@[simp] theorem State.finish_tagin (s : State) : s.finish.tagin = s.tagin := rfl
@[simp] theorem State.finish_tagout (s : State) : s.finish.tagout = s.tagout := rfl
@[simp] theorem State.finish_texp (s : State) : s.finish.texp = s.texp := rfl
@[simp] theorem State.finish_lensKey (s : State) : s.finish.lensKey = s.lensKey := rfl
@[simp] theorem State.finish_lensNonce (s : State) : s.finish.lensNonce = s.lensNonce := rfl
@[simp] theorem State.finish_lensTag (s : State) : s.finish.lensTag = s.lensTag := rfl
@[simp] theorem State.finish_aoff (s : State) : s.finish.aoff = s.aoff := rfl
@[simp] theorem State.finish_alen (s : State) : s.finish.alen = s.alen := rfl
@[simp] theorem State.finish_moff (s : State) : s.finish.moff = s.moff := rfl
@[simp] theorem State.finish_mlen (s : State) : s.finish.mlen = s.mlen := rfl
@[simp] theorem State.finish_doff (s : State) : s.finish.doff = s.doff := rfl
@[simp] theorem State.finish_irqEn (s : State) : s.finish.irqEn = s.irqEn := rfl
@[simp] theorem State.finish_done (s : State) : s.finish.done = true := rfl
@[simp] theorem State.finish_err (s : State) : s.finish.err = s.err := rfl
@[simp] theorem State.finish_authOk (s : State) : s.finish.authOk = s.authOk := rfl
@[simp] theorem State.finish_outLock (s : State) : s.finish.outLock = s.outLock := rfl
@[simp] theorem State.finish_ovr (s : State) : s.finish.ovr = s.ovr := rfl
@[simp] theorem State.finish_errcode (s : State) : s.finish.errcode = s.errcode := rfl
@[simp] theorem State.finish_errcmd (s : State) : s.finish.errcmd = s.errcmd := rfl
@[simp] theorem State.finish_cmd (s : State) : s.finish.cmd = s.cmd := rfl
@[simp] theorem State.finish_phase (s : State) : s.finish.phase = .idle := rfl
@[simp] theorem State.finish_ibuf (s : State) : s.finish.ibuf = s.ibuf := rfl
@[simp] theorem State.finish_obuf (s : State) : s.finish.obuf = s.obuf := rfl
@[simp] theorem State.finish_port (s : State) : s.finish.port = s.port := rfl
@[simp] theorem State.finish_response (s : State) : s.finish.response = s.response := rfl

/-! ## `State.raiseError` -/

@[simp] theorem State.raiseError_bankA (s : State) (e : ErrorCode) : (s.raiseError e).bankA = s.bankA := rfl
@[simp] theorem State.raiseError_bankB (s : State) (e : ErrorCode) : (s.raiseError e).bankB = s.bankB := rfl
@[simp] theorem State.raiseError_key (s : State) (e : ErrorCode) : (s.raiseError e).key = s.key := rfl
@[simp] theorem State.raiseError_nonce (s : State) (e : ErrorCode) : (s.raiseError e).nonce = s.nonce := rfl
@[simp] theorem State.raiseError_tagin (s : State) (e : ErrorCode) : (s.raiseError e).tagin = s.tagin := rfl
@[simp] theorem State.raiseError_tagout (s : State) (e : ErrorCode) : (s.raiseError e).tagout = s.tagout := rfl
@[simp] theorem State.raiseError_texp (s : State) (e : ErrorCode) : (s.raiseError e).texp = s.texp := rfl
@[simp] theorem State.raiseError_lensKey (s : State) (e : ErrorCode) : (s.raiseError e).lensKey = s.lensKey := rfl
@[simp] theorem State.raiseError_lensNonce (s : State) (e : ErrorCode) :
    (s.raiseError e).lensNonce = s.lensNonce := rfl
@[simp] theorem State.raiseError_lensTag (s : State) (e : ErrorCode) : (s.raiseError e).lensTag = s.lensTag := rfl
@[simp] theorem State.raiseError_aoff (s : State) (e : ErrorCode) : (s.raiseError e).aoff = s.aoff := rfl
@[simp] theorem State.raiseError_alen (s : State) (e : ErrorCode) : (s.raiseError e).alen = s.alen := rfl
@[simp] theorem State.raiseError_moff (s : State) (e : ErrorCode) : (s.raiseError e).moff = s.moff := rfl
@[simp] theorem State.raiseError_mlen (s : State) (e : ErrorCode) : (s.raiseError e).mlen = s.mlen := rfl
@[simp] theorem State.raiseError_doff (s : State) (e : ErrorCode) : (s.raiseError e).doff = s.doff := rfl
@[simp] theorem State.raiseError_irqEn (s : State) (e : ErrorCode) : (s.raiseError e).irqEn = s.irqEn := rfl
@[simp] theorem State.raiseError_done (s : State) (e : ErrorCode) : (s.raiseError e).done = true := rfl
@[simp] theorem State.raiseError_err (s : State) (e : ErrorCode) : (s.raiseError e).err = (e.isError || s.err) := rfl
@[simp] theorem State.raiseError_authOk (s : State) (e : ErrorCode) : (s.raiseError e).authOk = s.authOk := rfl
@[simp] theorem State.raiseError_outLock (s : State) (e : ErrorCode) : (s.raiseError e).outLock = s.outLock := rfl
@[simp] theorem State.raiseError_ovr (s : State) (e : ErrorCode) : (s.raiseError e).ovr = s.ovr := rfl
@[simp] theorem State.raiseError_errcode (s : State) (e : ErrorCode) :
    (s.raiseError e).errcode = (if e.isError then e else s.errcode) := rfl
@[simp] theorem State.raiseError_errcmd (s : State) (e : ErrorCode) :
    (s.raiseError e).errcmd = (if e.isError then s.cmd else s.errcmd) := rfl
@[simp] theorem State.raiseError_cmd (s : State) (e : ErrorCode) : (s.raiseError e).cmd = s.cmd := rfl
@[simp] theorem State.raiseError_phase (s : State) (e : ErrorCode) : (s.raiseError e).phase = .idle := rfl
@[simp] theorem State.raiseError_ibuf (s : State) (e : ErrorCode) : (s.raiseError e).ibuf = s.ibuf := rfl
@[simp] theorem State.raiseError_obuf (s : State) (e : ErrorCode) : (s.raiseError e).obuf = s.obuf := rfl
@[simp] theorem State.raiseError_port (s : State) (e : ErrorCode) : (s.raiseError e).port = s.port := rfl
@[simp] theorem State.raiseError_response (s : State) (e : ErrorCode) : (s.raiseError e).response = s.response := rfl

/-! ## `State.accept` -/

@[simp] theorem State.accept_bankA (s : State) (w : Reg) : (s.accept w).bankA = s.bankA := rfl
@[simp] theorem State.accept_bankB (s : State) (w : Reg) : (s.accept w).bankB = s.bankB := rfl
@[simp] theorem State.accept_key (s : State) (w : Reg) : (s.accept w).key = s.key := rfl
@[simp] theorem State.accept_nonce (s : State) (w : Reg) : (s.accept w).nonce = s.nonce := rfl
@[simp] theorem State.accept_tagin (s : State) (w : Reg) : (s.accept w).tagin = s.tagin := rfl
@[simp] theorem State.accept_tagout (s : State) (w : Reg) : (s.accept w).tagout = s.tagout := rfl
@[simp] theorem State.accept_texp (s : State) (w : Reg) : (s.accept w).texp = s.texp := rfl
@[simp] theorem State.accept_lensKey (s : State) (w : Reg) : (s.accept w).lensKey = s.lensKey := rfl
@[simp] theorem State.accept_lensNonce (s : State) (w : Reg) : (s.accept w).lensNonce = s.lensNonce := rfl
@[simp] theorem State.accept_lensTag (s : State) (w : Reg) : (s.accept w).lensTag = s.lensTag := rfl
@[simp] theorem State.accept_aoff (s : State) (w : Reg) : (s.accept w).aoff = s.aoff := rfl
@[simp] theorem State.accept_alen (s : State) (w : Reg) : (s.accept w).alen = s.alen := rfl
@[simp] theorem State.accept_moff (s : State) (w : Reg) : (s.accept w).moff = s.moff := rfl
@[simp] theorem State.accept_mlen (s : State) (w : Reg) : (s.accept w).mlen = s.mlen := rfl
@[simp] theorem State.accept_doff (s : State) (w : Reg) : (s.accept w).doff = s.doff := rfl
@[simp] theorem State.accept_irqEn (s : State) (w : Reg) : (s.accept w).irqEn = s.irqEn := rfl
@[simp] theorem State.accept_done (s : State) (w : Reg) : (s.accept w).done = false := rfl
@[simp] theorem State.accept_err (s : State) (w : Reg) : (s.accept w).err = false := rfl
@[simp] theorem State.accept_authOk (s : State) (w : Reg) : (s.accept w).authOk = false := rfl
@[simp] theorem State.accept_outLock (s : State) (w : Reg) : (s.accept w).outLock = s.outLock := rfl
@[simp] theorem State.accept_ovr (s : State) (w : Reg) : (s.accept w).ovr = s.ovr := rfl
@[simp] theorem State.accept_errcode (s : State) (w : Reg) : (s.accept w).errcode = .none := rfl
@[simp] theorem State.accept_errcmd (s : State) (w : Reg) : (s.accept w).errcmd = 0 := rfl
@[simp] theorem State.accept_cmd (s : State) (w : Reg) : (s.accept w).cmd = w := rfl
@[simp] theorem State.accept_phase (s : State) (w : Reg) : (s.accept w).phase = .run := rfl
@[simp] theorem State.accept_ibuf (s : State) (w : Reg) : (s.accept w).ibuf = s.ibuf := rfl
@[simp] theorem State.accept_obuf (s : State) (w : Reg) : (s.accept w).obuf = s.obuf := rfl
@[simp] theorem State.accept_port (s : State) (w : Reg) : (s.accept w).port = s.port := rfl
@[simp] theorem State.accept_response (s : State) (w : Reg) : (s.accept w).response = s.response := rfl

/-! ## `State.writeStatus` -/

@[simp] theorem State.writeStatus_bankA (s : State) (v : Reg) : (s.writeStatus v).bankA = s.bankA := rfl
@[simp] theorem State.writeStatus_bankB (s : State) (v : Reg) : (s.writeStatus v).bankB = s.bankB := rfl
@[simp] theorem State.writeStatus_key (s : State) (v : Reg) : (s.writeStatus v).key = s.key := rfl
@[simp] theorem State.writeStatus_nonce (s : State) (v : Reg) : (s.writeStatus v).nonce = s.nonce := rfl
@[simp] theorem State.writeStatus_tagin (s : State) (v : Reg) : (s.writeStatus v).tagin = s.tagin := rfl
@[simp] theorem State.writeStatus_tagout (s : State) (v : Reg) : (s.writeStatus v).tagout = s.tagout := rfl
@[simp] theorem State.writeStatus_texp (s : State) (v : Reg) : (s.writeStatus v).texp = s.texp := rfl
@[simp] theorem State.writeStatus_lensKey (s : State) (v : Reg) : (s.writeStatus v).lensKey = s.lensKey := rfl
@[simp] theorem State.writeStatus_lensNonce (s : State) (v : Reg) : (s.writeStatus v).lensNonce = s.lensNonce := rfl
@[simp] theorem State.writeStatus_lensTag (s : State) (v : Reg) : (s.writeStatus v).lensTag = s.lensTag := rfl
@[simp] theorem State.writeStatus_aoff (s : State) (v : Reg) : (s.writeStatus v).aoff = s.aoff := rfl
@[simp] theorem State.writeStatus_alen (s : State) (v : Reg) : (s.writeStatus v).alen = s.alen := rfl
@[simp] theorem State.writeStatus_moff (s : State) (v : Reg) : (s.writeStatus v).moff = s.moff := rfl
@[simp] theorem State.writeStatus_mlen (s : State) (v : Reg) : (s.writeStatus v).mlen = s.mlen := rfl
@[simp] theorem State.writeStatus_doff (s : State) (v : Reg) : (s.writeStatus v).doff = s.doff := rfl
@[simp] theorem State.writeStatus_irqEn (s : State) (v : Reg) : (s.writeStatus v).irqEn = s.irqEn := rfl
@[simp] theorem State.writeStatus_done (s : State) (v : Reg) :
    (s.writeStatus v).done = (s.done && !v.getLsbD 1) := rfl
@[simp] theorem State.writeStatus_err (s : State) (v : Reg) : (s.writeStatus v).err = (s.err && !v.getLsbD 2) := rfl
@[simp] theorem State.writeStatus_authOk (s : State) (v : Reg) : (s.writeStatus v).authOk = s.authOk := rfl
@[simp] theorem State.writeStatus_outLock (s : State) (v : Reg) : (s.writeStatus v).outLock = s.outLock := rfl
@[simp] theorem State.writeStatus_ovr (s : State) (v : Reg) : (s.writeStatus v).ovr = (s.ovr && !v.getLsbD 5) := rfl
@[simp] theorem State.writeStatus_errcode (s : State) (v : Reg) :
    (s.writeStatus v).errcode = (if v.getLsbD 2 then .none else s.errcode) := rfl
@[simp] theorem State.writeStatus_errcmd (s : State) (v : Reg) :
    (s.writeStatus v).errcmd = (if v.getLsbD 2 then 0 else s.errcmd) := rfl
@[simp] theorem State.writeStatus_cmd (s : State) (v : Reg) : (s.writeStatus v).cmd = s.cmd := rfl
@[simp] theorem State.writeStatus_phase (s : State) (v : Reg) : (s.writeStatus v).phase = s.phase := rfl
@[simp] theorem State.writeStatus_ibuf (s : State) (v : Reg) : (s.writeStatus v).ibuf = s.ibuf := rfl
@[simp] theorem State.writeStatus_obuf (s : State) (v : Reg) : (s.writeStatus v).obuf = s.obuf := rfl
@[simp] theorem State.writeStatus_port (s : State) (v : Reg) : (s.writeStatus v).port = s.port := rfl
@[simp] theorem State.writeStatus_response (s : State) (v : Reg) : (s.writeStatus v).response = s.response := rfl

/-! ## `State.writeLens` -/

@[simp] theorem State.writeLens_bankA (s : State) (v : Reg) : (s.writeLens v).bankA = s.bankA := rfl
@[simp] theorem State.writeLens_bankB (s : State) (v : Reg) : (s.writeLens v).bankB = s.bankB := rfl
@[simp] theorem State.writeLens_key (s : State) (v : Reg) : (s.writeLens v).key = s.key := rfl
@[simp] theorem State.writeLens_nonce (s : State) (v : Reg) : (s.writeLens v).nonce = s.nonce := rfl
@[simp] theorem State.writeLens_tagin (s : State) (v : Reg) : (s.writeLens v).tagin = s.tagin := rfl
@[simp] theorem State.writeLens_tagout (s : State) (v : Reg) : (s.writeLens v).tagout = s.tagout := rfl
@[simp] theorem State.writeLens_texp (s : State) (v : Reg) : (s.writeLens v).texp = s.texp := rfl
@[simp] theorem State.writeLens_lensKey (s : State) (v : Reg) : (s.writeLens v).lensKey = v.extractLsb' 0 5 := rfl
@[simp] theorem State.writeLens_lensNonce (s : State) (v : Reg) : (s.writeLens v).lensNonce = v.extractLsb' 8 5 := rfl
@[simp] theorem State.writeLens_lensTag (s : State) (v : Reg) : (s.writeLens v).lensTag = v.extractLsb' 16 5 := rfl
@[simp] theorem State.writeLens_aoff (s : State) (v : Reg) : (s.writeLens v).aoff = s.aoff := rfl
@[simp] theorem State.writeLens_alen (s : State) (v : Reg) : (s.writeLens v).alen = s.alen := rfl
@[simp] theorem State.writeLens_moff (s : State) (v : Reg) : (s.writeLens v).moff = s.moff := rfl
@[simp] theorem State.writeLens_mlen (s : State) (v : Reg) : (s.writeLens v).mlen = s.mlen := rfl
@[simp] theorem State.writeLens_doff (s : State) (v : Reg) : (s.writeLens v).doff = s.doff := rfl
@[simp] theorem State.writeLens_irqEn (s : State) (v : Reg) : (s.writeLens v).irqEn = s.irqEn := rfl
@[simp] theorem State.writeLens_done (s : State) (v : Reg) : (s.writeLens v).done = s.done := rfl
@[simp] theorem State.writeLens_err (s : State) (v : Reg) : (s.writeLens v).err = s.err := rfl
@[simp] theorem State.writeLens_authOk (s : State) (v : Reg) : (s.writeLens v).authOk = s.authOk := rfl
@[simp] theorem State.writeLens_outLock (s : State) (v : Reg) : (s.writeLens v).outLock = s.outLock := rfl
@[simp] theorem State.writeLens_ovr (s : State) (v : Reg) : (s.writeLens v).ovr = s.ovr := rfl
@[simp] theorem State.writeLens_errcode (s : State) (v : Reg) : (s.writeLens v).errcode = s.errcode := rfl
@[simp] theorem State.writeLens_errcmd (s : State) (v : Reg) : (s.writeLens v).errcmd = s.errcmd := rfl
@[simp] theorem State.writeLens_cmd (s : State) (v : Reg) : (s.writeLens v).cmd = s.cmd := rfl
@[simp] theorem State.writeLens_phase (s : State) (v : Reg) : (s.writeLens v).phase = s.phase := rfl
@[simp] theorem State.writeLens_ibuf (s : State) (v : Reg) : (s.writeLens v).ibuf = s.ibuf := rfl
@[simp] theorem State.writeLens_obuf (s : State) (v : Reg) : (s.writeLens v).obuf = s.obuf := rfl
@[simp] theorem State.writeLens_port (s : State) (v : Reg) : (s.writeLens v).port = s.port := rfl
@[simp] theorem State.writeLens_response (s : State) (v : Reg) : (s.writeLens v).response = s.response := rfl

/-! ## `State.zeroise` -/

@[simp] theorem State.zeroise_bankA (s : State) : s.zeroise.bankA = Bank.zero := rfl
@[simp] theorem State.zeroise_bankB (s : State) : s.zeroise.bankB = Bank.zero := rfl
@[simp] theorem State.zeroise_key (s : State) : s.zeroise.key = s.key := rfl
@[simp] theorem State.zeroise_nonce (s : State) : s.zeroise.nonce = s.nonce := rfl
@[simp] theorem State.zeroise_tagin (s : State) : s.zeroise.tagin = s.tagin := rfl
@[simp] theorem State.zeroise_tagout (s : State) : s.zeroise.tagout = s.tagout := rfl
@[simp] theorem State.zeroise_texp (s : State) : s.zeroise.texp = ByteReg.zero := rfl
@[simp] theorem State.zeroise_lensKey (s : State) : s.zeroise.lensKey = s.lensKey := rfl
@[simp] theorem State.zeroise_lensNonce (s : State) : s.zeroise.lensNonce = s.lensNonce := rfl
@[simp] theorem State.zeroise_lensTag (s : State) : s.zeroise.lensTag = s.lensTag := rfl
@[simp] theorem State.zeroise_aoff (s : State) : s.zeroise.aoff = s.aoff := rfl
@[simp] theorem State.zeroise_alen (s : State) : s.zeroise.alen = s.alen := rfl
@[simp] theorem State.zeroise_moff (s : State) : s.zeroise.moff = s.moff := rfl
@[simp] theorem State.zeroise_mlen (s : State) : s.zeroise.mlen = s.mlen := rfl
@[simp] theorem State.zeroise_doff (s : State) : s.zeroise.doff = s.doff := rfl
@[simp] theorem State.zeroise_irqEn (s : State) : s.zeroise.irqEn = s.irqEn := rfl
@[simp] theorem State.zeroise_done (s : State) : s.zeroise.done = s.done := rfl
@[simp] theorem State.zeroise_err (s : State) : s.zeroise.err = s.err := rfl
@[simp] theorem State.zeroise_authOk (s : State) : s.zeroise.authOk = s.authOk := rfl
@[simp] theorem State.zeroise_outLock (s : State) : s.zeroise.outLock = s.outLock := rfl
@[simp] theorem State.zeroise_ovr (s : State) : s.zeroise.ovr = s.ovr := rfl
@[simp] theorem State.zeroise_errcode (s : State) : s.zeroise.errcode = s.errcode := rfl
@[simp] theorem State.zeroise_errcmd (s : State) : s.zeroise.errcmd = s.errcmd := rfl
@[simp] theorem State.zeroise_cmd (s : State) : s.zeroise.cmd = s.cmd := rfl
@[simp] theorem State.zeroise_phase (s : State) : s.zeroise.phase = s.phase := rfl
@[simp] theorem State.zeroise_ibuf (s : State) : s.zeroise.ibuf = s.ibuf := rfl
@[simp] theorem State.zeroise_obuf (s : State) : s.zeroise.obuf = s.obuf := rfl
@[simp] theorem State.zeroise_port (s : State) : s.zeroise.port = s.port := rfl
@[simp] theorem State.zeroise_response (s : State) : s.zeroise.response = s.response := rfl

/-! ## `State.clearSecrets` -/

@[simp] theorem State.clearSecrets_bankA (s : State) : s.clearSecrets.bankA = Bank.zero := rfl
@[simp] theorem State.clearSecrets_bankB (s : State) : s.clearSecrets.bankB = Bank.zero := rfl
@[simp] theorem State.clearSecrets_key (s : State) : s.clearSecrets.key = ByteReg.zero := rfl
@[simp] theorem State.clearSecrets_nonce (s : State) : s.clearSecrets.nonce = s.nonce := rfl
@[simp] theorem State.clearSecrets_tagin (s : State) : s.clearSecrets.tagin = s.tagin := rfl
@[simp] theorem State.clearSecrets_tagout (s : State) : s.clearSecrets.tagout = ByteReg.zero := rfl
@[simp] theorem State.clearSecrets_texp (s : State) : s.clearSecrets.texp = ByteReg.zero := rfl
@[simp] theorem State.clearSecrets_lensKey (s : State) : s.clearSecrets.lensKey = s.lensKey := rfl
@[simp] theorem State.clearSecrets_lensNonce (s : State) : s.clearSecrets.lensNonce = s.lensNonce := rfl
@[simp] theorem State.clearSecrets_lensTag (s : State) : s.clearSecrets.lensTag = s.lensTag := rfl
@[simp] theorem State.clearSecrets_aoff (s : State) : s.clearSecrets.aoff = s.aoff := rfl
@[simp] theorem State.clearSecrets_alen (s : State) : s.clearSecrets.alen = s.alen := rfl
@[simp] theorem State.clearSecrets_moff (s : State) : s.clearSecrets.moff = s.moff := rfl
@[simp] theorem State.clearSecrets_mlen (s : State) : s.clearSecrets.mlen = s.mlen := rfl
@[simp] theorem State.clearSecrets_doff (s : State) : s.clearSecrets.doff = s.doff := rfl
@[simp] theorem State.clearSecrets_irqEn (s : State) : s.clearSecrets.irqEn = s.irqEn := rfl
@[simp] theorem State.clearSecrets_done (s : State) : s.clearSecrets.done = s.done := rfl
@[simp] theorem State.clearSecrets_err (s : State) : s.clearSecrets.err = s.err := rfl
@[simp] theorem State.clearSecrets_authOk (s : State) : s.clearSecrets.authOk = s.authOk := rfl
@[simp] theorem State.clearSecrets_outLock (s : State) : s.clearSecrets.outLock = false := rfl
@[simp] theorem State.clearSecrets_ovr (s : State) : s.clearSecrets.ovr = s.ovr := rfl
@[simp] theorem State.clearSecrets_errcode (s : State) : s.clearSecrets.errcode = s.errcode := rfl
@[simp] theorem State.clearSecrets_errcmd (s : State) : s.clearSecrets.errcmd = s.errcmd := rfl
@[simp] theorem State.clearSecrets_cmd (s : State) : s.clearSecrets.cmd = s.cmd := rfl
@[simp] theorem State.clearSecrets_phase (s : State) : s.clearSecrets.phase = s.phase := rfl
@[simp] theorem State.clearSecrets_ibuf (s : State) : s.clearSecrets.ibuf = [] := rfl
@[simp] theorem State.clearSecrets_obuf (s : State) : s.clearSecrets.obuf = [] := rfl
@[simp] theorem State.clearSecrets_port (s : State) : s.clearSecrets.port = s.port := rfl
@[simp] theorem State.clearSecrets_response (s : State) : s.clearSecrets.response = s.response := rfl

/-! ## `State.writeOutput` -/

@[simp] theorem State.writeOutput_bankA (s : State) (out : List Byte) : (s.writeOutput out).bankA = s.bankA := rfl
@[simp] theorem State.writeOutput_bankB (s : State) (out : List Byte) : (s.writeOutput out).bankB = s.bankB := rfl
@[simp] theorem State.writeOutput_key (s : State) (out : List Byte) : (s.writeOutput out).key = s.key := rfl
@[simp] theorem State.writeOutput_nonce (s : State) (out : List Byte) : (s.writeOutput out).nonce = s.nonce := rfl
@[simp] theorem State.writeOutput_tagin (s : State) (out : List Byte) : (s.writeOutput out).tagin = s.tagin := rfl
@[simp] theorem State.writeOutput_tagout (s : State) (out : List Byte) : (s.writeOutput out).tagout = s.tagout := rfl
@[simp] theorem State.writeOutput_texp (s : State) (out : List Byte) : (s.writeOutput out).texp = s.texp := rfl
@[simp] theorem State.writeOutput_lensKey (s : State) (out : List Byte) :
    (s.writeOutput out).lensKey = s.lensKey := rfl
@[simp] theorem State.writeOutput_lensNonce (s : State) (out : List Byte) :
    (s.writeOutput out).lensNonce = s.lensNonce := rfl
@[simp] theorem State.writeOutput_lensTag (s : State) (out : List Byte) :
    (s.writeOutput out).lensTag = s.lensTag := rfl
@[simp] theorem State.writeOutput_aoff (s : State) (out : List Byte) : (s.writeOutput out).aoff = s.aoff := rfl
@[simp] theorem State.writeOutput_alen (s : State) (out : List Byte) : (s.writeOutput out).alen = s.alen := rfl
@[simp] theorem State.writeOutput_moff (s : State) (out : List Byte) : (s.writeOutput out).moff = s.moff := rfl
@[simp] theorem State.writeOutput_mlen (s : State) (out : List Byte) : (s.writeOutput out).mlen = s.mlen := rfl
@[simp] theorem State.writeOutput_doff (s : State) (out : List Byte) : (s.writeOutput out).doff = s.doff := rfl
@[simp] theorem State.writeOutput_irqEn (s : State) (out : List Byte) : (s.writeOutput out).irqEn = s.irqEn := rfl
@[simp] theorem State.writeOutput_done (s : State) (out : List Byte) : (s.writeOutput out).done = s.done := rfl
@[simp] theorem State.writeOutput_err (s : State) (out : List Byte) : (s.writeOutput out).err = s.err := rfl
@[simp] theorem State.writeOutput_authOk (s : State) (out : List Byte) : (s.writeOutput out).authOk = s.authOk := rfl
@[simp] theorem State.writeOutput_outLock (s : State) (out : List Byte) :
    (s.writeOutput out).outLock = s.outLock := rfl
@[simp] theorem State.writeOutput_ovr (s : State) (out : List Byte) : (s.writeOutput out).ovr = s.ovr := rfl
@[simp] theorem State.writeOutput_errcode (s : State) (out : List Byte) :
    (s.writeOutput out).errcode = s.errcode := rfl
@[simp] theorem State.writeOutput_errcmd (s : State) (out : List Byte) : (s.writeOutput out).errcmd = s.errcmd := rfl
@[simp] theorem State.writeOutput_cmd (s : State) (out : List Byte) : (s.writeOutput out).cmd = s.cmd := rfl
@[simp] theorem State.writeOutput_phase (s : State) (out : List Byte) : (s.writeOutput out).phase = s.phase := rfl
@[simp] theorem State.writeOutput_ibuf (s : State) (out : List Byte) : (s.writeOutput out).ibuf = s.ibuf := rfl
@[simp] theorem State.writeOutput_obuf (s : State) (out : List Byte) :
    (s.writeOutput out).obuf = s.obuf.writeBytes s.doff.toNat out := rfl
@[simp] theorem State.writeOutput_port (s : State) (out : List Byte) : (s.writeOutput out).port = s.port := rfl
@[simp] theorem State.writeOutput_response (s : State) (out : List Byte) :
    (s.writeOutput out).response = s.response := rfl

/-! ## `State.endClearing` -/

@[simp] theorem State.endClearing_bankA (s : State) : s.endClearing.bankA = s.bankA := rfl
@[simp] theorem State.endClearing_bankB (s : State) : s.endClearing.bankB = s.bankB := rfl
@[simp] theorem State.endClearing_key (s : State) : s.endClearing.key = s.key := rfl
@[simp] theorem State.endClearing_nonce (s : State) : s.endClearing.nonce = s.nonce := rfl
@[simp] theorem State.endClearing_tagin (s : State) : s.endClearing.tagin = s.tagin := rfl
@[simp] theorem State.endClearing_tagout (s : State) : s.endClearing.tagout = s.tagout := rfl
@[simp] theorem State.endClearing_texp (s : State) : s.endClearing.texp = s.texp := rfl
@[simp] theorem State.endClearing_lensKey (s : State) : s.endClearing.lensKey = s.lensKey := rfl
@[simp] theorem State.endClearing_lensNonce (s : State) : s.endClearing.lensNonce = s.lensNonce := rfl
@[simp] theorem State.endClearing_lensTag (s : State) : s.endClearing.lensTag = s.lensTag := rfl
@[simp] theorem State.endClearing_aoff (s : State) : s.endClearing.aoff = s.aoff := rfl
@[simp] theorem State.endClearing_alen (s : State) : s.endClearing.alen = s.alen := rfl
@[simp] theorem State.endClearing_moff (s : State) : s.endClearing.moff = s.moff := rfl
@[simp] theorem State.endClearing_mlen (s : State) : s.endClearing.mlen = s.mlen := rfl
@[simp] theorem State.endClearing_doff (s : State) : s.endClearing.doff = s.doff := rfl
@[simp] theorem State.endClearing_irqEn (s : State) : s.endClearing.irqEn = s.irqEn := rfl
@[simp] theorem State.endClearing_done (s : State) : s.endClearing.done = s.done := rfl
@[simp] theorem State.endClearing_err (s : State) : s.endClearing.err = s.err := rfl
@[simp] theorem State.endClearing_authOk (s : State) : s.endClearing.authOk = s.authOk := rfl
@[simp] theorem State.endClearing_outLock (s : State) : s.endClearing.outLock = s.outLock := rfl
@[simp] theorem State.endClearing_ovr (s : State) : s.endClearing.ovr = s.ovr := rfl
@[simp] theorem State.endClearing_errcode (s : State) : s.endClearing.errcode = s.errcode := rfl
@[simp] theorem State.endClearing_errcmd (s : State) : s.endClearing.errcmd = s.errcmd := rfl
@[simp] theorem State.endClearing_cmd (s : State) : s.endClearing.cmd = s.cmd := rfl
@[simp] theorem State.endClearing_phase (s : State) : s.endClearing.phase = .idle := rfl
@[simp] theorem State.endClearing_ibuf (s : State) : s.endClearing.ibuf = s.ibuf := rfl
@[simp] theorem State.endClearing_obuf (s : State) : s.endClearing.obuf = s.obuf := rfl
@[simp] theorem State.endClearing_port (s : State) : s.endClearing.port = s.port := rfl
@[simp] theorem State.endClearing_response (s : State) : s.endClearing.response = s.response := rfl

/-! ## `State.resetBlock` -/

@[simp] theorem State.resetBlock_bankA (s : State) : s.resetBlock.bankA = State.reset.bankA := rfl
@[simp] theorem State.resetBlock_bankB (s : State) : s.resetBlock.bankB = State.reset.bankB := rfl
@[simp] theorem State.resetBlock_key (s : State) : s.resetBlock.key = State.reset.key := rfl
@[simp] theorem State.resetBlock_nonce (s : State) : s.resetBlock.nonce = State.reset.nonce := rfl
@[simp] theorem State.resetBlock_tagin (s : State) : s.resetBlock.tagin = State.reset.tagin := rfl
@[simp] theorem State.resetBlock_tagout (s : State) : s.resetBlock.tagout = State.reset.tagout := rfl
@[simp] theorem State.resetBlock_texp (s : State) : s.resetBlock.texp = State.reset.texp := rfl
@[simp] theorem State.resetBlock_lensKey (s : State) : s.resetBlock.lensKey = State.reset.lensKey := rfl
@[simp] theorem State.resetBlock_lensNonce (s : State) : s.resetBlock.lensNonce = State.reset.lensNonce := rfl
@[simp] theorem State.resetBlock_lensTag (s : State) : s.resetBlock.lensTag = State.reset.lensTag := rfl
@[simp] theorem State.resetBlock_aoff (s : State) : s.resetBlock.aoff = State.reset.aoff := rfl
@[simp] theorem State.resetBlock_alen (s : State) : s.resetBlock.alen = State.reset.alen := rfl
@[simp] theorem State.resetBlock_moff (s : State) : s.resetBlock.moff = State.reset.moff := rfl
@[simp] theorem State.resetBlock_mlen (s : State) : s.resetBlock.mlen = State.reset.mlen := rfl
@[simp] theorem State.resetBlock_doff (s : State) : s.resetBlock.doff = State.reset.doff := rfl
@[simp] theorem State.resetBlock_irqEn (s : State) : s.resetBlock.irqEn = State.reset.irqEn := rfl
@[simp] theorem State.resetBlock_done (s : State) : s.resetBlock.done = State.reset.done := rfl
@[simp] theorem State.resetBlock_err (s : State) : s.resetBlock.err = State.reset.err := rfl
@[simp] theorem State.resetBlock_authOk (s : State) : s.resetBlock.authOk = State.reset.authOk := rfl
@[simp] theorem State.resetBlock_outLock (s : State) : s.resetBlock.outLock = State.reset.outLock := rfl
@[simp] theorem State.resetBlock_ovr (s : State) : s.resetBlock.ovr = State.reset.ovr := rfl
@[simp] theorem State.resetBlock_errcode (s : State) : s.resetBlock.errcode = State.reset.errcode := rfl
@[simp] theorem State.resetBlock_errcmd (s : State) : s.resetBlock.errcmd = State.reset.errcmd := rfl
@[simp] theorem State.resetBlock_cmd (s : State) : s.resetBlock.cmd = State.reset.cmd := rfl
@[simp] theorem State.resetBlock_phase (s : State) : s.resetBlock.phase = State.reset.phase := rfl
@[simp] theorem State.resetBlock_ibuf (s : State) : s.resetBlock.ibuf = State.reset.ibuf := rfl
@[simp] theorem State.resetBlock_obuf (s : State) : s.resetBlock.obuf = State.reset.obuf := rfl
@[simp] theorem State.resetBlock_port (s : State) : s.resetBlock.port = s.port := rfl
@[simp] theorem State.resetBlock_response (s : State) : s.resetBlock.response = State.reset.response := rfl

/-! ## `State.setBank` -/

@[simp] theorem State.setBank_key (s : State) (sel : BankSel) (v : Bank) :
    (s.setBank sel v).key = s.key := by cases sel <;> rfl
@[simp] theorem State.setBank_nonce (s : State) (sel : BankSel) (v : Bank) :
    (s.setBank sel v).nonce = s.nonce := by cases sel <;> rfl
@[simp] theorem State.setBank_tagin (s : State) (sel : BankSel) (v : Bank) :
    (s.setBank sel v).tagin = s.tagin := by cases sel <;> rfl
@[simp] theorem State.setBank_tagout (s : State) (sel : BankSel) (v : Bank) :
    (s.setBank sel v).tagout = s.tagout := by cases sel <;> rfl
@[simp] theorem State.setBank_texp (s : State) (sel : BankSel) (v : Bank) :
    (s.setBank sel v).texp = s.texp := by cases sel <;> rfl
@[simp] theorem State.setBank_lensKey (s : State) (sel : BankSel) (v : Bank) :
    (s.setBank sel v).lensKey = s.lensKey := by cases sel <;> rfl
@[simp] theorem State.setBank_lensNonce (s : State) (sel : BankSel) (v : Bank) :
    (s.setBank sel v).lensNonce = s.lensNonce := by cases sel <;> rfl
@[simp] theorem State.setBank_lensTag (s : State) (sel : BankSel) (v : Bank) :
    (s.setBank sel v).lensTag = s.lensTag := by cases sel <;> rfl
@[simp] theorem State.setBank_aoff (s : State) (sel : BankSel) (v : Bank) :
    (s.setBank sel v).aoff = s.aoff := by cases sel <;> rfl
@[simp] theorem State.setBank_alen (s : State) (sel : BankSel) (v : Bank) :
    (s.setBank sel v).alen = s.alen := by cases sel <;> rfl
@[simp] theorem State.setBank_moff (s : State) (sel : BankSel) (v : Bank) :
    (s.setBank sel v).moff = s.moff := by cases sel <;> rfl
@[simp] theorem State.setBank_mlen (s : State) (sel : BankSel) (v : Bank) :
    (s.setBank sel v).mlen = s.mlen := by cases sel <;> rfl
@[simp] theorem State.setBank_doff (s : State) (sel : BankSel) (v : Bank) :
    (s.setBank sel v).doff = s.doff := by cases sel <;> rfl
@[simp] theorem State.setBank_irqEn (s : State) (sel : BankSel) (v : Bank) :
    (s.setBank sel v).irqEn = s.irqEn := by cases sel <;> rfl
@[simp] theorem State.setBank_done (s : State) (sel : BankSel) (v : Bank) :
    (s.setBank sel v).done = s.done := by cases sel <;> rfl
@[simp] theorem State.setBank_err (s : State) (sel : BankSel) (v : Bank) :
    (s.setBank sel v).err = s.err := by cases sel <;> rfl
@[simp] theorem State.setBank_authOk (s : State) (sel : BankSel) (v : Bank) :
    (s.setBank sel v).authOk = s.authOk := by cases sel <;> rfl
@[simp] theorem State.setBank_outLock (s : State) (sel : BankSel) (v : Bank) :
    (s.setBank sel v).outLock = s.outLock := by cases sel <;> rfl
@[simp] theorem State.setBank_ovr (s : State) (sel : BankSel) (v : Bank) :
    (s.setBank sel v).ovr = s.ovr := by cases sel <;> rfl
@[simp] theorem State.setBank_errcode (s : State) (sel : BankSel) (v : Bank) :
    (s.setBank sel v).errcode = s.errcode := by cases sel <;> rfl
@[simp] theorem State.setBank_errcmd (s : State) (sel : BankSel) (v : Bank) :
    (s.setBank sel v).errcmd = s.errcmd := by cases sel <;> rfl
@[simp] theorem State.setBank_cmd (s : State) (sel : BankSel) (v : Bank) :
    (s.setBank sel v).cmd = s.cmd := by cases sel <;> rfl
@[simp] theorem State.setBank_phase (s : State) (sel : BankSel) (v : Bank) :
    (s.setBank sel v).phase = s.phase := by cases sel <;> rfl
@[simp] theorem State.setBank_ibuf (s : State) (sel : BankSel) (v : Bank) :
    (s.setBank sel v).ibuf = s.ibuf := by cases sel <;> rfl
@[simp] theorem State.setBank_obuf (s : State) (sel : BankSel) (v : Bank) :
    (s.setBank sel v).obuf = s.obuf := by cases sel <;> rfl
@[simp] theorem State.setBank_port (s : State) (sel : BankSel) (v : Bank) :
    (s.setBank sel v).port = s.port := by cases sel <;> rfl
@[simp] theorem State.setBank_response (s : State) (sel : BankSel) (v : Bank) :
    (s.setBank sel v).response = s.response := by cases sel <;> rfl

/-! ## `State.deliver` -/

@[simp] theorem State.deliver_bankA (s : State) (dest : SqueezeDest) (out : List Byte) :
    (s.deliver dest out).bankA = s.bankA := by cases dest <;> rfl
@[simp] theorem State.deliver_bankB (s : State) (dest : SqueezeDest) (out : List Byte) :
    (s.deliver dest out).bankB = s.bankB := by cases dest <;> rfl
@[simp] theorem State.deliver_key (s : State) (dest : SqueezeDest) (out : List Byte) :
    (s.deliver dest out).key = s.key := by cases dest <;> rfl
@[simp] theorem State.deliver_nonce (s : State) (dest : SqueezeDest) (out : List Byte) :
    (s.deliver dest out).nonce = s.nonce := by cases dest <;> rfl
@[simp] theorem State.deliver_tagin (s : State) (dest : SqueezeDest) (out : List Byte) :
    (s.deliver dest out).tagin = s.tagin := by cases dest <;> rfl
@[simp] theorem State.deliver_lensKey (s : State) (dest : SqueezeDest) (out : List Byte) :
    (s.deliver dest out).lensKey = s.lensKey := by cases dest <;> rfl
@[simp] theorem State.deliver_lensNonce (s : State) (dest : SqueezeDest) (out : List Byte) :
    (s.deliver dest out).lensNonce = s.lensNonce := by cases dest <;> rfl
@[simp] theorem State.deliver_lensTag (s : State) (dest : SqueezeDest) (out : List Byte) :
    (s.deliver dest out).lensTag = s.lensTag := by cases dest <;> rfl
@[simp] theorem State.deliver_aoff (s : State) (dest : SqueezeDest) (out : List Byte) :
    (s.deliver dest out).aoff = s.aoff := by cases dest <;> rfl
@[simp] theorem State.deliver_alen (s : State) (dest : SqueezeDest) (out : List Byte) :
    (s.deliver dest out).alen = s.alen := by cases dest <;> rfl
@[simp] theorem State.deliver_moff (s : State) (dest : SqueezeDest) (out : List Byte) :
    (s.deliver dest out).moff = s.moff := by cases dest <;> rfl
@[simp] theorem State.deliver_mlen (s : State) (dest : SqueezeDest) (out : List Byte) :
    (s.deliver dest out).mlen = s.mlen := by cases dest <;> rfl
@[simp] theorem State.deliver_doff (s : State) (dest : SqueezeDest) (out : List Byte) :
    (s.deliver dest out).doff = s.doff := by cases dest <;> rfl
@[simp] theorem State.deliver_irqEn (s : State) (dest : SqueezeDest) (out : List Byte) :
    (s.deliver dest out).irqEn = s.irqEn := by cases dest <;> rfl
@[simp] theorem State.deliver_done (s : State) (dest : SqueezeDest) (out : List Byte) :
    (s.deliver dest out).done = s.done := by cases dest <;> rfl
@[simp] theorem State.deliver_err (s : State) (dest : SqueezeDest) (out : List Byte) :
    (s.deliver dest out).err = s.err := by cases dest <;> rfl
@[simp] theorem State.deliver_authOk (s : State) (dest : SqueezeDest) (out : List Byte) :
    (s.deliver dest out).authOk = s.authOk := by cases dest <;> rfl
@[simp] theorem State.deliver_outLock (s : State) (dest : SqueezeDest) (out : List Byte) :
    (s.deliver dest out).outLock = s.outLock := by cases dest <;> rfl
@[simp] theorem State.deliver_ovr (s : State) (dest : SqueezeDest) (out : List Byte) :
    (s.deliver dest out).ovr = s.ovr := by cases dest <;> rfl
@[simp] theorem State.deliver_errcode (s : State) (dest : SqueezeDest) (out : List Byte) :
    (s.deliver dest out).errcode = s.errcode := by cases dest <;> rfl
@[simp] theorem State.deliver_errcmd (s : State) (dest : SqueezeDest) (out : List Byte) :
    (s.deliver dest out).errcmd = s.errcmd := by cases dest <;> rfl
@[simp] theorem State.deliver_cmd (s : State) (dest : SqueezeDest) (out : List Byte) :
    (s.deliver dest out).cmd = s.cmd := by cases dest <;> rfl
@[simp] theorem State.deliver_phase (s : State) (dest : SqueezeDest) (out : List Byte) :
    (s.deliver dest out).phase = s.phase := by cases dest <;> rfl
@[simp] theorem State.deliver_ibuf (s : State) (dest : SqueezeDest) (out : List Byte) :
    (s.deliver dest out).ibuf = s.ibuf := by cases dest <;> rfl
@[simp] theorem State.deliver_port (s : State) (dest : SqueezeDest) (out : List Byte) :
    (s.deliver dest out).port = s.port := by cases dest <;> rfl
@[simp] theorem State.deliver_response (s : State) (dest : SqueezeDest) (out : List Byte) :
    (s.deliver dest out).response = s.response := by cases dest <;> rfl

/-! ## `State.setDuplexBanks` -/

@[simp] theorem State.setDuplexBanks_key (s : State) (bank : BankSel) (ls : Bool) (r : DuplexResult) :
    (s.setDuplexBanks bank ls r).key = s.key := by cases bank <;> cases ls <;> rfl
@[simp] theorem State.setDuplexBanks_nonce (s : State) (bank : BankSel) (ls : Bool) (r : DuplexResult) :
    (s.setDuplexBanks bank ls r).nonce = s.nonce := by cases bank <;> cases ls <;> rfl
@[simp] theorem State.setDuplexBanks_tagin (s : State) (bank : BankSel) (ls : Bool) (r : DuplexResult) :
    (s.setDuplexBanks bank ls r).tagin = s.tagin := by cases bank <;> cases ls <;> rfl
@[simp] theorem State.setDuplexBanks_tagout (s : State) (bank : BankSel) (ls : Bool) (r : DuplexResult) :
    (s.setDuplexBanks bank ls r).tagout = s.tagout := by cases bank <;> cases ls <;> rfl
@[simp] theorem State.setDuplexBanks_texp (s : State) (bank : BankSel) (ls : Bool) (r : DuplexResult) :
    (s.setDuplexBanks bank ls r).texp = s.texp := by cases bank <;> cases ls <;> rfl
@[simp] theorem State.setDuplexBanks_lensKey (s : State) (bank : BankSel) (ls : Bool) (r : DuplexResult) :
    (s.setDuplexBanks bank ls r).lensKey = s.lensKey := by cases bank <;> cases ls <;> rfl
@[simp] theorem State.setDuplexBanks_lensNonce (s : State) (bank : BankSel) (ls : Bool) (r : DuplexResult) :
    (s.setDuplexBanks bank ls r).lensNonce = s.lensNonce := by cases bank <;> cases ls <;> rfl
@[simp] theorem State.setDuplexBanks_lensTag (s : State) (bank : BankSel) (ls : Bool) (r : DuplexResult) :
    (s.setDuplexBanks bank ls r).lensTag = s.lensTag := by cases bank <;> cases ls <;> rfl
@[simp] theorem State.setDuplexBanks_aoff (s : State) (bank : BankSel) (ls : Bool) (r : DuplexResult) :
    (s.setDuplexBanks bank ls r).aoff = s.aoff := by cases bank <;> cases ls <;> rfl
@[simp] theorem State.setDuplexBanks_alen (s : State) (bank : BankSel) (ls : Bool) (r : DuplexResult) :
    (s.setDuplexBanks bank ls r).alen = s.alen := by cases bank <;> cases ls <;> rfl
@[simp] theorem State.setDuplexBanks_moff (s : State) (bank : BankSel) (ls : Bool) (r : DuplexResult) :
    (s.setDuplexBanks bank ls r).moff = s.moff := by cases bank <;> cases ls <;> rfl
@[simp] theorem State.setDuplexBanks_mlen (s : State) (bank : BankSel) (ls : Bool) (r : DuplexResult) :
    (s.setDuplexBanks bank ls r).mlen = s.mlen := by cases bank <;> cases ls <;> rfl
@[simp] theorem State.setDuplexBanks_doff (s : State) (bank : BankSel) (ls : Bool) (r : DuplexResult) :
    (s.setDuplexBanks bank ls r).doff = s.doff := by cases bank <;> cases ls <;> rfl
@[simp] theorem State.setDuplexBanks_irqEn (s : State) (bank : BankSel) (ls : Bool) (r : DuplexResult) :
    (s.setDuplexBanks bank ls r).irqEn = s.irqEn := by cases bank <;> cases ls <;> rfl
@[simp] theorem State.setDuplexBanks_done (s : State) (bank : BankSel) (ls : Bool) (r : DuplexResult) :
    (s.setDuplexBanks bank ls r).done = s.done := by cases bank <;> cases ls <;> rfl
@[simp] theorem State.setDuplexBanks_err (s : State) (bank : BankSel) (ls : Bool) (r : DuplexResult) :
    (s.setDuplexBanks bank ls r).err = s.err := by cases bank <;> cases ls <;> rfl
@[simp] theorem State.setDuplexBanks_authOk (s : State) (bank : BankSel) (ls : Bool) (r : DuplexResult) :
    (s.setDuplexBanks bank ls r).authOk = s.authOk := by cases bank <;> cases ls <;> rfl
@[simp] theorem State.setDuplexBanks_outLock (s : State) (bank : BankSel) (ls : Bool) (r : DuplexResult) :
    (s.setDuplexBanks bank ls r).outLock = s.outLock := by cases bank <;> cases ls <;> rfl
@[simp] theorem State.setDuplexBanks_ovr (s : State) (bank : BankSel) (ls : Bool) (r : DuplexResult) :
    (s.setDuplexBanks bank ls r).ovr = s.ovr := by cases bank <;> cases ls <;> rfl
@[simp] theorem State.setDuplexBanks_errcode (s : State) (bank : BankSel) (ls : Bool) (r : DuplexResult) :
    (s.setDuplexBanks bank ls r).errcode = s.errcode := by cases bank <;> cases ls <;> rfl
@[simp] theorem State.setDuplexBanks_errcmd (s : State) (bank : BankSel) (ls : Bool) (r : DuplexResult) :
    (s.setDuplexBanks bank ls r).errcmd = s.errcmd := by cases bank <;> cases ls <;> rfl
@[simp] theorem State.setDuplexBanks_cmd (s : State) (bank : BankSel) (ls : Bool) (r : DuplexResult) :
    (s.setDuplexBanks bank ls r).cmd = s.cmd := by cases bank <;> cases ls <;> rfl
@[simp] theorem State.setDuplexBanks_phase (s : State) (bank : BankSel) (ls : Bool) (r : DuplexResult) :
    (s.setDuplexBanks bank ls r).phase = s.phase := by cases bank <;> cases ls <;> rfl
@[simp] theorem State.setDuplexBanks_ibuf (s : State) (bank : BankSel) (ls : Bool) (r : DuplexResult) :
    (s.setDuplexBanks bank ls r).ibuf = s.ibuf := by cases bank <;> cases ls <;> rfl
@[simp] theorem State.setDuplexBanks_obuf (s : State) (bank : BankSel) (ls : Bool) (r : DuplexResult) :
    (s.setDuplexBanks bank ls r).obuf = s.obuf := by cases bank <;> cases ls <;> rfl
@[simp] theorem State.setDuplexBanks_port (s : State) (bank : BankSel) (ls : Bool) (r : DuplexResult) :
    (s.setDuplexBanks bank ls r).port = s.port := by cases bank <;> cases ls <;> rfl
@[simp] theorem State.setDuplexBanks_response (s : State) (bank : BankSel) (ls : Bool) (r : DuplexResult) :
    (s.setDuplexBanks bank ls r).response = s.response := by cases bank <;> cases ls <;> rfl

/-! ## `State.deliver`, by destination -/

@[simp] theorem State.deliver_obuf_eq (s : State) (out : List Byte) : s.deliver .obuf out = s.writeOutput out := rfl

@[simp] theorem State.deliver_tagout_eq (s : State) (out : List Byte) :
    s.deliver .tagout out = { s with tagout := ByteReg.ofBytes out } := rfl

@[simp] theorem State.deliver_texp_eq (s : State) (out : List Byte) :
    s.deliver .texp out = { s with texp := ByteReg.ofBytes out } := rfl

/-! ## Computed views -/

@[simp] theorem State.busy_eq_true (s : State) : s.busy = true ↔ s.phase ≠ .idle := by simp [State.busy]

@[simp] theorem State.busy_eq_false (s : State) : s.busy = false ↔ s.phase = .idle := by simp [State.busy]

end Sys2Proof.Machine
end

