-- ==== Sys2Proof/Laws/Memory.lean ====
section
/-!
SUPPORT. The buffers (spec/20_memory.md R69): a read after a write, the canonical form and the range kept by every
operation, and equality of buffers in canonical form by their bytes.
-/

namespace Sys2Proof.Machine

@[simp] theorem Memory.read_nil (a : Nat) : Memory.read [] a = 0 := rfl

theorem Memory.read_cons (k : Nat) (v : Byte) (m : Memory) (a : Nat) :
    Memory.read ((k, v) :: m) a = if a = k then v else m.read a := rfl

/-- An offset that no cell lists reads as the unlisted value. -/
theorem Memory.read_of_not_listed (m : Memory) (a : Nat) (h : ∀ c ∈ m, c.1 ≠ a) : m.read a = 0 := by
  induction m with
  | nil => rfl
  | cons c m ih =>
    obtain ⟨k, v⟩ := c
    have hk : k ≠ a := h (k, v) (by simp)
    simp only [Memory.read_cons, if_neg (Ne.symm hk)]
    exact ih fun c hc => h c (by simp [hc])

theorem Memory.wf_nil : Memory.wf [] := by simp [Memory.wf]

theorem Memory.wf_cons (k : Nat) (v : Byte) (m : Memory) :
    Memory.wf ((k, v) :: m) ↔ (∀ c ∈ m, k < c.1) ∧ v ≠ 0 ∧ m.wf := by
  simp only [Memory.wf, List.pairwise_cons, List.forall_mem_cons, Memory.unlisted]
  tauto

/-- Every cell after a write is an earlier cell or the cell written. -/
theorem Memory.mem_write (m : Memory) (a : Nat) (b : Byte) (c : Host.Cell) (h : c ∈ m.write a b) :
    c ∈ m ∨ c = (a, b) := by
  induction m with
  | nil =>
    simp only [Memory.write] at h
    split at h <;> simp_all
  | cons d m ih =>
    obtain ⟨k, v⟩ := d
    simp only [Memory.write] at h
    split at h
    · split at h <;> simp_all
      tauto
    · split at h
      · split at h <;> simp_all
        tauto
      · rcases List.mem_cons.mp h with h | h
        · simp [h]
        · rcases ih h with h | h <;> simp [h]

/-- A write keeps the canonical form. -/
theorem Memory.wf_write (m : Memory) (a : Nat) (b : Byte) (h : m.wf) : (m.write a b).wf := by
  induction m with
  | nil =>
    simp only [Memory.write]
    split
    · exact Memory.wf_nil
    · rename_i hb
      exact (Memory.wf_cons _ _ _).mpr ⟨by simp, hb, Memory.wf_nil⟩
  | cons d m ih =>
    obtain ⟨k, v⟩ := d
    obtain ⟨hk, hv, hm⟩ := (Memory.wf_cons k v m).mp h
    simp only [Memory.write]
    split
    · rename_i hak
      split
      · exact h
      · rename_i hb
        refine (Memory.wf_cons _ _ _).mpr ⟨?_, hb, h⟩
        intro c hc
        rcases List.mem_cons.mp hc with rfl | hc
        · exact hak
        · exact lt_trans hak (hk c hc)
    · rename_i hak
      split
      · rename_i heq
        split
        · exact hm
        · rename_i hb
          exact (Memory.wf_cons _ _ _).mpr ⟨by simpa [heq] using hk, hb, hm⟩
      · rename_i hne
        refine (Memory.wf_cons _ _ _).mpr ⟨?_, hv, ih hm⟩
        intro c hc
        rcases Memory.mem_write m a b c hc with hc | rfl
        · exact hk c hc
        · exact lt_of_le_of_ne (not_lt.mp hak) (Ne.symm hne)

/-- A read after a write, in canonical form: the byte written at its offset, the old byte everywhere else. -/
theorem Memory.read_write (m : Memory) (h : m.wf) (a : Nat) (b : Byte) (x : Nat) :
    (m.write a b).read x = if x = a then b else m.read x := by
  induction m with
  | nil =>
    simp only [Memory.write]
    split
    · rename_i hb
      simp [hb, Memory.unlisted]
    · simp [Memory.read_cons]
  | cons d m ih =>
    obtain ⟨k, v⟩ := d
    obtain ⟨hk, hv, hm⟩ := (Memory.wf_cons k v m).mp h
    have hlow : ∀ y, y ≤ k → Memory.read m y = 0 := fun y hy =>
      Memory.read_of_not_listed m y fun c hc => (lt_of_le_of_lt hy (hk c hc)).ne'
    simp only [Memory.write]
    split
    · rename_i hak
      have hka : a ≠ k := hak.ne
      split
      · rename_i hb
        simp only [Memory.unlisted] at hb
        by_cases hx : x = a
        · subst hx
          simp [Memory.read_cons, hka, hb, hlow x hak.le]
        · simp [hx]
      · simp [Memory.read_cons]
    · rename_i hak
      split
      · rename_i heq
        subst heq
        split
        · rename_i hb
          simp only [Memory.unlisted] at hb
          by_cases hx : x = a
          · subst hx
            simp [hb, hlow x le_rfl]
          · simp [Memory.read_cons, hx]
        · by_cases hx : x = a <;> simp [Memory.read_cons, hx]
      · rename_i hne
        by_cases hx : x = k
        · subst hx
          simp [Memory.read_cons, Ne.symm hne]
        · simp [Memory.read_cons, hx, ih hm]

/-- Writing a string keeps the canonical form. -/
theorem Memory.wf_writeBytes (m : Memory) (off : Nat) (bs : List Byte) (h : m.wf) : (m.writeBytes off bs).wf := by
  induction bs generalizing m off with
  | nil => exact h
  | cons b bs ih => exact ih _ _ (Memory.wf_write m off b h)

/-- What a string write leaves at each offset (R69): byte `j` at `off + j`, every other byte as before. -/
theorem Memory.read_writeBytes (m : Memory) (h : m.wf) (off : Nat) (bs : List Byte) (x : Nat) :
    (m.writeBytes off bs).read x =
      if off ≤ x ∧ x < off + bs.length then bs.getD (x - off) 0 else m.read x := by
  induction bs generalizing m off with
  | nil =>
    have : ¬(off ≤ x ∧ x < off + ([] : List Byte).length) := by simp
    rw [if_neg this]
    rfl
  | cons b bs ih =>
    rw [Memory.writeBytes, ih _ (Memory.wf_write m off b h), Memory.read_write m h]
    by_cases hx : x = off
    · subst hx
      simp
    · by_cases hin : off ≤ x ∧ x < off + (b :: bs).length
      · have h1 : off + 1 ≤ x ∧ x < off + 1 + bs.length := by
          simp only [List.length_cons] at hin
          omega
        have h2 : x - off = (x - (off + 1)) + 1 := by omega
        rw [if_pos h1, if_pos hin, h2]
        simp
      · have h1 : ¬(off + 1 ≤ x ∧ x < off + 1 + bs.length) := by
          simp only [List.length_cons] at hin
          omega
        rw [if_neg h1, if_neg hin, if_neg hx]

/-- Outside the written bytes a string write changes nothing. -/
theorem Memory.read_writeBytes_outside (m : Memory) (h : m.wf) (off : Nat) (bs : List Byte) (x : Nat)
    (hx : x < off ∨ off + bs.length ≤ x) : (m.writeBytes off bs).read x = m.read x := by
  rw [Memory.read_writeBytes m h, if_neg (by omega)]

@[simp] theorem Memory.length_readBytes (m : Memory) (off n : Nat) : (m.readBytes off n).length = n := by
  simp [Memory.readBytes]

@[simp] theorem Memory.readBytes_zero (m : Memory) (off : Nat) : m.readBytes off 0 = [] := rfl

/-- Reading back the bytes just written (R69). -/
theorem Memory.readBytes_writeBytes (m : Memory) (h : m.wf) (off : Nat) (bs : List Byte) :
    (m.writeBytes off bs).readBytes off bs.length = bs := by
  apply List.ext_getElem
  · simp
  · intro j h1 h2
    simp only [Memory.readBytes, List.getElem_map, List.getElem_range]
    rw [Memory.read_writeBytes m h, if_pos (by simp at h1; omega)]
    simp [List.getD_eq_getElem?_getD, h2]

/-- Every cell after a string write is an earlier cell or lies in the written bytes. -/
theorem Memory.mem_writeBytes (m : Memory) (off : Nat) (bs : List Byte) (c : Host.Cell)
    (h : c ∈ m.writeBytes off bs) : c ∈ m ∨ (off ≤ c.1 ∧ c.1 < off + bs.length) := by
  induction bs generalizing m off with
  | nil => exact .inl h
  | cons b bs ih =>
    rcases ih _ _ h with h | h
    · rcases Memory.mem_write m off b c h with h | rfl
      · exact .inl h
      · exact .inr (by simp)
    · right
      simp only [List.length_cons]
      omega

/-- Two buffers in canonical form with the same bytes are the same list. -/
theorem Memory.ext (m n : Memory) (hm : m.wf) (hn : n.wf) (h : ∀ a, m.read a = n.read a) : m = n := by
  induction m generalizing n with
  | nil =>
    cases n with
    | nil => rfl
    | cons d n =>
      obtain ⟨k, v⟩ := d
      obtain ⟨-, hv, -⟩ := (Memory.wf_cons k v n).mp hn
      exact absurd (by simpa [Memory.read_cons] using (h k).symm) hv
  | cons d m ih =>
    obtain ⟨k, v⟩ := d
    obtain ⟨hk, hv, hm'⟩ := (Memory.wf_cons k v m).mp hm
    cases n with
    | nil => exact absurd (by simpa [Memory.read_cons] using h k) hv
    | cons e n =>
      obtain ⟨l, w⟩ := e
      obtain ⟨hl, hw, hn'⟩ := (Memory.wf_cons l w n).mp hn
      have low : ∀ (p : Memory) (j y : Nat), (∀ c ∈ p, j < c.1) → y ≤ j → Memory.read p y = 0 := fun p j y hp hy =>
        Memory.read_of_not_listed p y fun c hc => (lt_of_le_of_lt hy (hp c hc)).ne'
      have hkl : k = l := by
        rcases lt_trichotomy k l with hlt | heq | hgt
        · have := h k
          simp only [Memory.read_cons, if_true, if_neg hlt.ne, low n l k hl hlt.le] at this
          exact absurd this hv
        · exact heq
        · have := h l
          simp only [Memory.read_cons, if_true, if_neg hgt.ne, low m k l hk hgt.le] at this
          exact absurd this.symm hw
      subst hkl
      have hvw : v = w := by simpa [Memory.read_cons] using h k
      subst hvw
      congr 1
      refine ih n hm' hn' fun a => ?_
      by_cases ha : a = k
      · subst ha
        rw [low m a a hk le_rfl, low n a a hl le_rfl]
      · simpa [Memory.read_cons, ha] using h a

end Sys2Proof.Machine
end

