-- ==== Sys2Proof/Laws/Codec.lean ====
section
/-!
SUPPORT. Words of a bank, bytes of a register and the big-endian packings (spec/40_permutation.md R120, R121,
spec/20_memory.md R64, R65): what a tabulated, updated or packed value reads as, and that packing and unpacking are
inverse.
-/

namespace Sys2Proof.Machine

/-! ## Banks -/

theorem Bank.word_eq_getElem (a : Bank) (i : Nat) (h : i < 25) : a.word i = a[i] := by
  simp [Bank.word, List.getD_eq_getElem?_getD, h]

theorem Bank.word_of_le (a : Bank) (i : Nat) (h : 25 ≤ i) : a.word i = 0 := by
  simp [Bank.word, List.getD_eq_getElem?_getD, h]

/-- A bank is its 25 words. -/
theorem Bank.ext (a b : Bank) (h : ∀ i < 25, a.word i = b.word i) : a = b := by
  apply Vector.ext
  intro i hi
  rw [← Bank.word_eq_getElem a i hi, ← Bank.word_eq_getElem b i hi]
  exact h i hi

@[simp] theorem Bank.word_tabulate (f : Nat → Word) (i : Nat) (h : i < 25) : (Bank.tabulate f).word i = f i := by
  interval_cases i <;> rfl

@[simp] theorem Bank.word_zero (i : Nat) : Bank.zero.word i = 0 := by
  by_cases h : i < 25
  · simp [Bank.word_eq_getElem _ _ h, Bank.zero]
  · exact Bank.word_of_le _ _ (by omega)

theorem Bank.word_set (a : Bank) (k : Nat) (hk : k < 25) (x : Word) (i : Nat) :
    Bank.word (a.set k x hk) i = if i = k then x else a.word i := by
  by_cases h : i < 25
  · rw [Bank.word_eq_getElem _ _ h, Vector.getElem_set]
    by_cases hik : i = k
    · simp [hik]
    · rw [if_neg (Ne.symm hik), if_neg hik, Bank.word_eq_getElem _ _ h]
  · rw [Bank.word_of_le _ _ (by omega), if_neg (by omega), Bank.word_of_le _ _ (by omega)]

@[simp] theorem Bank.word_xorWord0 (a : Bank) (x : Word) (i : Nat) :
    (a.xorWord0 x).word i = if i = 0 then a.word 0 ^^^ x else a.word i := Bank.word_set a 0 (by omega) _ i

@[simp] theorem Bank.word_load (b : List Byte) (i : Nat) (h : i < 25) : (Bank.load b).word i = wordOf b i :=
  Bank.word_tabulate _ _ h

/-- Two XORs into word 0 are one. -/
theorem Bank.xorWord0_xorWord0 (a : Bank) (x y : Word) : (a.xorWord0 x).xorWord0 y = a.xorWord0 (x ^^^ y) := by
  apply Bank.ext
  intro i _
  by_cases h : i = 0 <;> simp [h, BitVec.xor_assoc]

/-! ## 16-byte registers -/

theorem ByteReg.byte_eq_getElem (r : ByteReg) (i : Nat) (h : i < 16) : r.byte i = r[i] := by
  simp [ByteReg.byte, List.getD_eq_getElem?_getD, h]

theorem ByteReg.byte_of_le (r : ByteReg) (i : Nat) (h : 16 ≤ i) : r.byte i = 0 := by
  simp [ByteReg.byte, List.getD_eq_getElem?_getD, h]

/-- A register is its 16 bytes. -/
theorem ByteReg.ext (a b : ByteReg) (h : ∀ i < 16, a.byte i = b.byte i) : a = b := by
  apply Vector.ext
  intro i hi
  rw [← ByteReg.byte_eq_getElem a i hi, ← ByteReg.byte_eq_getElem b i hi]
  exact h i hi

@[simp] theorem ByteReg.byte_tabulate (f : Nat → Byte) (i : Nat) (h : i < 16) :
    (ByteReg.tabulate f).byte i = f i := by
  interval_cases i <;> rfl

@[simp] theorem ByteReg.byte_zero (i : Nat) : ByteReg.zero.byte i = 0 := by
  by_cases h : i < 16
  · simp [ByteReg.byte_eq_getElem _ _ h, ByteReg.zero]
  · exact ByteReg.byte_of_le _ _ (by omega)

@[simp] theorem ByteReg.byte_ofBytes (b : List Byte) (i : Nat) (h : i < 16) :
    (ByteReg.ofBytes b).byte i = b.getD i 0 := ByteReg.byte_tabulate _ _ h

theorem ByteReg.byte_writeWord (r : ByteReg) (k : Nat) (v : Reg) (i : Nat) (h : i < 16) :
    (r.writeWord k v).byte i = if i / 4 = k then regByte v (i % 4) else r.byte i := ByteReg.byte_tabulate _ _ h

/-- The bytes of a register as a list. -/
theorem ByteReg.toList_getD (r : ByteReg) (i : Nat) : r.toList.getD i 0 = r.byte i := rfl

/-! ## Packing -/

theorem byteAt_packWord (f : Nat → Byte) (k : Nat) (h : k < 8) : byteAt (packWord f) k = f k := by
  interval_cases k <;>
  · ext i hi
    simp only [byteAt, packWord, BitVec.getElem_extractLsb', BitVec.getLsbD_or, BitVec.getLsbD_shiftLeft,
      BitVec.getLsbD_setWidth]
    interval_cases i <;> simp

theorem packWord_byteAt (w : Word) : packWord (byteAt w) = w := by
  ext i hi
  simp only [byteAt, packWord, BitVec.getElem_or, BitVec.getElem_shiftLeft, BitVec.getElem_setWidth,
    BitVec.getLsbD_extractLsb']
  interval_cases i <;> simp

/-- Two words with the same eight bytes are equal. -/
theorem byteAt_ext (v w : Word) (h : ∀ k < 8, byteAt v k = byteAt w k) : v = w := by
  rw [← packWord_byteAt v, ← packWord_byteAt w]
  simp [packWord, h]

theorem byteAt_xor (v w : Word) (k : Nat) : byteAt (v ^^^ w) k = byteAt v k ^^^ byteAt w k := by
  ext i hi
  simp [byteAt]

@[simp] theorem length_wbytes (w : Word) : (wbytes w).length = 8 := by simp [wbytes]

theorem wbytes_getD (w : Word) (k : Nat) (h : k < 8) : (wbytes w).getD k 0 = byteAt w k := by
  simp [wbytes, List.getD_eq_getElem?_getD, h]

theorem regByte_packReg (f : Nat → Byte) (k : Nat) (h : k < 4) : regByte (packReg f) k = f k := by
  interval_cases k <;>
  · ext i hi
    simp only [regByte, packReg, BitVec.getElem_extractLsb', BitVec.getLsbD_or, BitVec.getLsbD_shiftLeft,
      BitVec.getLsbD_setWidth]
    interval_cases i <;> simp

theorem packReg_regByte (v : Reg) : packReg (regByte v) = v := by
  ext i hi
  simp only [regByte, packReg, BitVec.getElem_or, BitVec.getElem_shiftLeft, BitVec.getElem_setWidth,
    BitVec.getLsbD_extractLsb']
  interval_cases i <;> simp

end Sys2Proof.Machine
end

