-- ==== Sys2Proof/Laws/Permutation.lean ====
section
/-!
SUPPORT. The permutation engines word by word (spec/40_permutation.md R124-R134): what each step writes to each word,
the words the ISAP permutation leaves alone, and the lane map of ρ/π as a bijection.
-/

namespace Sys2Proof.Machine

/-! ## Rotation -/

theorem getElem_rotl (x : Word) (n : Nat) (hn : n < 64) (i : Nat) (hi : i < 64) :
    (rotl x n)[i] = x.getLsbD ((i + (64 - n)) % 64) := by
  simp only [rotl, BitVec.getElem_or, BitVec.getElem_shiftLeft, BitVec.getElem_ushiftRight]
  by_cases h : i < n
  · have e : (i + (64 - n)) % 64 = 64 - n + i := by omega
    simp [h, e]
  · have e : (i + (64 - n)) % 64 = i - n := by omega
    have z : x.getLsbD (64 - n + i) = false := BitVec.getLsbD_of_ge x _ (by omega)
    have g : x[i - n] = x.getLsbD (i - n) := (BitVec.getLsbD_eq_getElem _).symm
    simp [h, e, z, g]

@[simp] theorem rotl_zero (x : Word) : rotl x 0 = x := by
  apply BitVec.eq_of_getElem_eq
  intro i hi
  rw [getElem_rotl x 0 (by omega) i hi, ← BitVec.getLsbD_eq_getElem]
  congr 1
  omega

theorem rotl_xor (x y : Word) (n : Nat) : rotl (x ^^^ y) n = rotl x n ^^^ rotl y n := by
  apply BitVec.eq_of_getElem_eq
  intro i hi
  simp only [rotl, BitVec.getElem_or, BitVec.getElem_xor, BitVec.getElem_shiftLeft, BitVec.getElem_ushiftRight,
    BitVec.getLsbD_xor]
  by_cases h : i < n
  · simp [h]
  · by_cases hn : n ≤ 64
    · have z : ∀ w : Word, w.getLsbD (64 - n + i) = false := fun w => BitVec.getLsbD_of_ge w _ (by omega)
      simp [h, z]
    · exact absurd hi (by omega)

/-! ## ISAP permutation -/

theorem isapStepA_word (k : Word) (s : Bank) (i : Nat) :
    (isapStepA k s).word i = if i = 2 then s.word 2 ^^^ k else s.word i := Bank.word_set s 2 (by omega) _ i

theorem isapStepB_word (s : Bank) (i : Nat) (h : i < 25) :
    (isapStepB s).word i = if i < 5 then s.word i ^^^ isapT s ((i + 1) % 5) else s.word i :=
  Bank.word_tabulate _ _ h

theorem isapStepC_word (s : Bank) (i : Nat) (h : i < 25) :
    (isapStepC s).word i = if i < 5 then isapDiffuse i (s.word i) else s.word i := Bank.word_tabulate _ _ h

/-- An ISAP round leaves words 5..24 (R128). -/
theorem isapRound_word_high (k : Word) (s : Bank) (i : Nat) (h5 : 5 ≤ i) : (isapRound k s).word i = s.word i := by
  by_cases h : i < 25
  · rw [isapRound, isapStepC_word _ _ h, if_neg (by omega), isapStepB_word _ _ h, if_neg (by omega), isapStepA_word,
      if_neg (by omega)]
  · rw [Bank.word_of_le _ _ (by omega), Bank.word_of_le _ _ (by omega)]

/-- The loop of the ISAP permutation over a list of constants. -/
def isapRounds (ks : List Word) (s : Bank) : Bank := ks.foldl (fun s k => isapRound k s) s

theorem isapPerm_eq_rounds (c : Params) (n : Nat) (s : Bank) :
    isapPerm c n s = isapRounds ((List.range n).map fun r => rcIsap.getD (rcIndex c r n) 0) s := by
  simp [isapPerm, isapRounds, List.foldl_map]

@[simp] theorem isapPerm_zero (c : Params) (s : Bank) : isapPerm c 0 s = s := rfl

@[simp] theorem elephantPerm_zero (c : Params) (s : Bank) : elephantPerm c 0 s = s := rfl

@[simp] theorem perm_zero (c : Params) (sch : Scheme) (s : Bank) : perm c sch 0 s = s := by cases sch <;> rfl

theorem isapRounds_word_high (ks : List Word) (s : Bank) (i : Nat) (h5 : 5 ≤ i) :
    (isapRounds ks s).word i = s.word i := by
  induction ks generalizing s with
  | nil => rfl
  | cons k ks ih => exact (ih _).trans (isapRound_word_high k s i h5)

/-! ## Elephant permutation -/

theorem theta_word (a : Bank) (i : Nat) (h : i < 25) : (theta a).word i = a.word i ^^^ thetaD a (i % 5) :=
  Bank.word_tabulate _ _ h

theorem rhoPi_word (v : PiRhoVariant) (a : Bank) (i : Nat) (h : i < 25) : (rhoPi v a).word i = rhoPiLane v a i :=
  Bank.word_tabulate _ _ h

theorem chi_word (a : Bank) (i : Nat) (h : i < 25) :
    (chi a).word i = a.word (laneIdx (i % 5) (i / 5)) ^^^
      (~~~(a.word (laneIdx ((i % 5 + 1) % 5) (i / 5))) &&& a.word (laneIdx ((i % 5 + 2) % 5) (i / 5))) :=
  Bank.word_tabulate _ _ h

theorem iota_word (k : Word) (a : Bank) (i : Nat) : (iota k a).word i = if i = 0 then a.word 0 ^^^ k else a.word i :=
  Bank.word_set a 0 (by omega) _ i

theorem laneIdx_lt (x y : Nat) (hx : x < 5) (hy : y < 5) : laneIdx x y < 25 := by
  simp only [laneIdx]
  omega

@[simp] theorem laneIdx_mod (x y : Nat) (hx : x < 5) : laneIdx x y % 5 = x := by
  simp only [laneIdx]
  omega

@[simp] theorem laneIdx_div (x y : Nat) (hx : x < 5) : laneIdx x y / 5 = y := by
  simp only [laneIdx]
  omega

theorem piSource_lt (x y : Nat) (hx : x < 5) : piSource x y < 25 := by
  simp only [piSource, laneIdx]
  omega

/-- The scatter's lane map is the inverse of `src` (R130). -/
theorem piSourceInv_piSource (x y : Nat) (hx : x < 5) (hy : y < 5) : piSourceInv (piSource x y) = laneIdx x y := by
  interval_cases x <;> interval_cases y <;> rfl

/-- Both readings of `RC_START_MODE` name an entry of the table (R124). -/
theorem rcIndex_lt (c : Params) (r n : Nat) (hr : r < n) (hn : n ≤ 12) : rcIndex c r n < 12 := by
  unfold rcIndex
  split <;> omega

end Sys2Proof.Machine
end

