-- ==== Sys2Proof/Laws/Duplex.lean ====
section
/-!
SUPPORT. The duplex functions (spec/41_duplex.md R160-R167): lengths of blocks, keystream and outputs, and the block
split as a recursion.
-/

namespace Sys2Proof.Machine

/-! ## Chunks of the rate window -/

@[simp] theorem length_keystream (al : PartialAlign) (s : Bank) (n : Nat) : (keystream al s n).length = n := by
  simp [keystream]

theorem keystream_getD (al : PartialAlign) (s : Bank) (n j : Nat) (h : j < n) :
    (keystream al s n).getD j 0 = byteAt (s.word 0) (windowPos al n j) := by
  simp [keystream, List.getD_eq_getElem?_getD, h]

@[simp] theorem length_xorBytes (x y : List Byte) : (xorBytes x y).length = min x.length y.length := by
  simp [xorBytes]

/-- XOR with the same keystream twice gives the string back. -/
theorem xorBytes_xorBytes (x ks : List Byte) (h : x.length = ks.length) : xorBytes (xorBytes x ks) ks = x := by
  induction x generalizing ks with
  | nil => simp [xorBytes]
  | cons b x ih =>
    cases ks with
    | nil => simp at h
    | cons k ks =>
      have := ih ks (by simpa using h)
      simp only [xorBytes, List.zipWith_cons_cons, BitVec.xor_assoc, BitVec.xor_self, BitVec.xor_zero] at this ⊢
      rw [this]

/-- A full chunk uses the whole window under either alignment (R160). -/
theorem windowPos_eight (al : PartialAlign) (j : Nat) : windowPos al 8 j = j := by cases al <;> simp [windowPos]

/-! ## Blocks -/

@[simp] theorem nb_zero : nb 0 = 0 := rfl

theorem nb_le_one (n : Nat) (h : n ≤ 8) (h0 : 0 < n) : nb n = 1 := by
  simp only [nb]
  omega

theorem nb_add_eight (n : Nat) : nb (n + 8) = nb n + 1 := by
  simp only [nb]
  omega

@[simp] theorem blocks_nil : blocks [] = [] := rfl

/-- The block split of a non-empty string: the first block and the split of the rest (R162). -/
theorem blocks_cons (data : List Byte) (h : data ≠ []) : blocks data = data.take 8 :: blocks (data.drop 8) := by
  have hl : 0 < data.length := List.length_pos_iff.mpr h
  have hn : nb data.length = nb (data.drop 8).length + 1 := by
    simp only [nb, List.length_drop]
    omega
  simp only [blocks, hn, List.range_succ_eq_map, List.map_cons, List.map_map]
  congr 1
  apply List.map_congr_left
  intro k _
  simp [List.drop_drop, Nat.mul_add, Nat.add_comm]

/-- Every block has 1 to 8 bytes (R162). -/
theorem length_of_mem_blocks (data blk : List Byte) (h : blk ∈ blocks data) : 0 < blk.length ∧ blk.length ≤ 8 := by
  simp only [blocks, List.mem_map, List.mem_range] at h
  obtain ⟨k, hk, rfl⟩ := h
  simp only [nb] at hk
  simp only [List.length_take, List.length_drop]
  omega

/-- The blocks put together again (R162). -/
theorem flatten_blocks (data : List Byte) : (blocks data).flatten = data := by
  induction h : data.length using Nat.strong_induction_on generalizing data with
  | _ n ih =>
    by_cases h0 : data = []
    · simp [h0]
    · have hl : 0 < data.length := List.length_pos_iff.mpr h0
      rw [blocks_cons data h0, List.flatten_cons, ih (data.drop 8).length (by simp; omega) _ rfl, List.take_append_drop]

/-! ## Loops -/

theorem length_encBlocks (c : Params) (s : Scheme) (lock : Bool) (bs : List (List Byte)) (a b : Bank) :
    (encBlocks c s lock bs a b).out.length = bs.flatten.length := by
  induction bs generalizing a b with
  | nil => rfl
  | cons blk bs ih => simp [encBlocks, ih]

theorem length_decBlocks (c : Params) (s : Scheme) (lock : Bool) (bs : List (List Byte)) (a b : Bank) :
    (decBlocks c s lock bs a b).out.length = bs.flatten.length := by
  induction bs generalizing a b with
  | nil => rfl
  | cons blk bs ih => simp [decBlocks, ih]

@[simp] theorem length_duplexEnc (c : Params) (s : Scheme) (a b : Bank) (data : List Byte) (lock : Bool) :
    (duplexEnc c s a data lock b).out.length = data.length := by
  rw [duplexEnc, length_encBlocks, flatten_blocks]

@[simp] theorem length_duplexDec (c : Params) (s : Scheme) (a b : Bank) (data : List Byte) (lock : Bool) :
    (duplexDec c s a data lock b).out.length = data.length := by
  rw [duplexDec, length_decBlocks, flatten_blocks]

theorem length_squeezeReads (c : Params) (s : Scheme) (len : Nat) (a : Bank) :
    (squeezeReads c s (nb len) len a).2.length = len := by
  induction h : nb len generalizing len a with
  | zero =>
    simp only [nb] at h
    simp only [squeezeReads, List.length_nil]
    omega
  | succ fuel ih =>
    simp only [squeezeReads]
    split
    · simpa using by omega
    · rename_i h8
      have hn : nb (len - 8) = fuel := by
        simp only [nb] at h ⊢
        omega
      simp only [List.length_append, length_keystream, ih (len - 8) _ hn]
      omega

@[simp] theorem length_squeeze (c : Params) (s : Scheme) (a : Bank) (len : Nat) :
    (squeeze c s a len).2.length = len := length_squeezeReads c s len a

@[simp] theorem length_aeadEncrypt_fst (c : Params) (s : Scheme) (key nonce ad p : List Byte) :
    (aeadEncrypt c s key nonce ad p).1.length = p.length := by cases s <;> simp [aeadEncrypt]

@[simp] theorem length_aeadDecrypt_fst (c : Params) (s : Scheme) (key nonce ad p : List Byte) :
    (aeadDecrypt c s key nonce ad p).1.length = p.length := by cases s <;> simp [aeadDecrypt]

@[simp] theorem length_aeadEncrypt_snd (c : Params) (s : Scheme) (key nonce ad p : List Byte) :
    (aeadEncrypt c s key nonce ad p).2.length = tagLen s := by
  cases s <;> simp [aeadEncrypt, elephantTag, isapTag]

@[simp] theorem length_aeadDecrypt_snd (c : Params) (s : Scheme) (key nonce ad p : List Byte) :
    (aeadDecrypt c s key nonce ad p).2.length = tagLen s := by
  cases s <;> simp [aeadDecrypt, elephantTag, isapTag]

end Sys2Proof.Machine
end

