-- ==== Sys2Proof/Laws/Operations.lean ====
section
/-!
SUPPORT. For each shared operation over the state, once, everything it can do: the pre-checks, an accepted command, the
verify step, and the host's reads and writes (spec/60_exceptions.md R245-R247, spec/42_aead_verify.md R206,
spec/20_memory.md R61-R68).
-/

namespace Sys2Proof.Machine

/-! ## Pre-checks and commands -/

/-- What each answer of the pre-checks says (R245). -/
theorem preCheck_cases (c : Params) (i : Instr) (s : State) :
    (preCheck c i s = .illegalCommand ∧ ¬i.WellFormed) ∨
    (preCheck c i s = .invalidParameter ∧ i.WellFormed ∧ lengthsOk s i = false) ∨
    (preCheck c i s = .malformedInput ∧ i.WellFormed ∧ lengthsOk s i = true ∧
      (checkedRegions s i).any (Region.malformed c) = true) ∨
    (preCheck c i s = .none ∧ i.WellFormed ∧ lengthsOk s i = true ∧
      (checkedRegions s i).any (Region.malformed c) = false) := by
  unfold preCheck Instr.WellFormed
  cases h1 : i.wellFormed
  · exact .inl ⟨rfl, by simp⟩
  · cases h2 : lengthsOk s i
    · exact .inr (.inl ⟨rfl, rfl, rfl⟩)
    · cases h3 : (checkedRegions s i).any (Region.malformed c)
      · exact .inr (.inr (.inr ⟨rfl, rfl, rfl, rfl⟩))
      · exact .inr (.inr (.inl ⟨rfl, rfl, rfl, rfl⟩))

/-- A command runs its body exactly when every pre-check passes. -/
theorem runCommand_of_pass (c : Params) (i : Instr) (body : State → State) (s : State) (h : preCheck c i s = .none) :
    runCommand c i body s = body s := by simp [runCommand, h]

/-- A failed pre-check raises its code and does nothing else (R246). -/
theorem runCommand_of_fail (c : Params) (i : Instr) (body : State → State) (s : State) (h : preCheck c i s ≠ .none) :
    runCommand c i body s = s.raiseError (preCheck c i s) := by
  unfold runCommand
  split
  · contradiction
  · rfl

/-- Everything an accepted command can do. -/
theorem runCommand_cases (c : Params) (i : Instr) (body : State → State) (s : State) :
    (preCheck c i s = .none ∧ runCommand c i body s = body s) ∨
    (preCheck c i s ≠ .none ∧ runCommand c i body s = s.raiseError (preCheck c i s)) := by
  by_cases h : preCheck c i s = .none
  · exact .inl ⟨h, runCommand_of_pass c i body s h⟩
  · exact .inr ⟨h, runCommand_of_fail c i body s h⟩

/-- A region that is not malformed lies in the buffer or is empty (R243). -/
theorem Region.fits (c : Params) (r : Region) (h : r.malformed c = false) : r.len = 0 ∨ r.off + r.len ≤ c.bufBytes := by
  simp only [Region.malformed, Bool.and_eq_false_iff, decide_eq_false_iff_not, not_lt] at h
  omega

/-- Everything the verify step can do (R206, R207). -/
theorem verifyStep_cases (s : State) (sch : Scheme) :
    (ctEq s.texp s.tagin (tagLen sch) = true ∧
      s.verifyStep sch = ({ s with texp := ByteReg.zero, authOk := true, outLock := false }, .none)) ∨
    (ctEq s.texp s.tagin (tagLen sch) = false ∧
      s.verifyStep sch =
        ({ s with texp := ByteReg.zero, obuf := [], outLock := false }, .authenticationFailure)) := by
  by_cases h : ctEq s.texp s.tagin (tagLen sch) = true
  · exact .inl ⟨h, by simp [State.verifyStep, h]⟩
  · refine .inr ⟨by simpa using h, ?_⟩
    simp [State.verifyStep, h, Memory.cleared]

/-- Everything the end of VERIFY and AEAD_DEC can do (R206, R207, R247). -/
theorem verifyAndComplete_cases (s : State) (sch : Scheme) :
    (ctEq s.texp s.tagin (tagLen sch) = true ∧
      s.verifyAndComplete sch =
        { s with texp := ByteReg.zero, authOk := true, outLock := false, phase := .idle, done := true }) ∨
    (ctEq s.texp s.tagin (tagLen sch) = false ∧
      s.verifyAndComplete sch =
        { s with
          texp := ByteReg.zero, obuf := [], outLock := false, err := true, errcode := .authenticationFailure,
          errcmd := s.cmd, phase := .idle, done := true }) := by
  rcases verifyStep_cases s sch with ⟨h, e⟩ | ⟨h, e⟩
  · exact .inl ⟨h, by rw [State.verifyAndComplete, e]; rfl⟩
  · exact .inr ⟨h, by rw [State.verifyAndComplete, e]; rfl⟩

/-! ## The host port -/

/-- Everything a supported write can do (R62, R63, R68). -/
theorem hostWrite_cases (c : Params) (s : State) (off : Nat) (v : Reg) :
    (s.busy = true ∧ droppedWhileBusy (portTarget c off) = true ∧ hostWrite c s off v = { s with ovr := true }) ∨
    ((s.busy = false ∨ droppedWhileBusy (portTarget c off) = false) ∧
      hostWrite c s off v = writeTarget s v (portTarget c off)) := by
  unfold hostWrite
  cases hb : s.busy <;> cases hd : droppedWhileBusy (portTarget c off) <;> simp [hd]

/-- Everything a supported read can return (R62, R68). -/
theorem hostRead_cases (c : Params) (s : State) (off : Nat) :
    (s.busy = true ∧ readableWhileBusy (portTarget c off) = false ∧ hostRead c s off = 0) ∨
    ((s.busy = false ∨ readableWhileBusy (portTarget c off) = true) ∧
      hostRead c s off = readTarget c s (portTarget c off)) := by
  unfold hostRead
  cases hb : s.busy <;> cases hd : readableWhileBusy (portTarget c off) <;> simp [hd]

/-- A register of the map is named by its offset (R62). -/
theorem portTarget_register (c : Params) (off : Nat) (t : PortTarget) (h : registerMap.lookup off = some t) :
    portTarget c off = t := by simp [portTarget, h]

/-- No register of the map lies at 0x80 or above (R62). -/
theorem registerMap_lookup_high (off : Nat) (h : 0x80 ≤ off) : registerMap.lookup off = none := by
  simp only [registerMap, List.lookup]
  repeat
    split
    · rename_i heq
      simp only [beq_iff_eq] at heq
      omega
  rfl

/-- The IBUF window (R62). -/
theorem portTarget_ibuf (c : Params) (k : Nat) (h : k < c.bufBytes) : portTarget c (0x1000 + k) = .ibuf k := by
  simp only [portTarget, registerMap_lookup_high _ (show 0x80 ≤ 0x1000 + k by omega)]
  rw [if_pos (by omega)]
  simp

/-- The OBUF window (R62); BUF_BYTES is at most 4096 (R6). -/
theorem portTarget_obuf (c : Params) (k : Nat) (h : k < c.bufBytes) (hb : c.bufBytes ≤ 4096) :
    portTarget c (0x2000 + k) = .obuf k := by
  simp only [portTarget, registerMap_lookup_high _ (show 0x80 ≤ 0x2000 + k by omega)]
  rw [if_neg (by omega), if_pos (by omega)]
  simp

/-- Every target of an offset below 0x80 that is mapped is a register: no buffer word and not `unmapped` (R62). -/
theorem registerMap_lookup_register (off : Nat) (t : PortTarget) (h : registerMap.lookup off = some t) :
    (∀ k, t ≠ .ibuf k) ∧ (∀ k, t ≠ .obuf k) ∧ t ≠ .unmapped := by
  have listed : t ∈ registerMap.map Prod.snd := by
    obtain ⟨l₁, l₂, e, -⟩ := List.lookup_eq_some_iff.1 h
    simp [e]
  simp only [registerMap, List.map_cons, List.map_nil, List.mem_cons, List.not_mem_nil, or_false] at listed
  rcases listed with h | h | h | h | h | h | h | h | h | h | h | h | h | h | h | h | h | h | h | h | h | h | h | h | h |
    h | h | h | h | h | h | h <;> subst h <;> simp

/-- The offsets of IBUF words, and no others, name IBUF (R62). -/
theorem portTarget_eq_ibuf (c : Params) (off k : Nat) (h : portTarget c off = .ibuf k) :
    off = 0x1000 + k ∧ k < c.bufBytes := by
  unfold portTarget at h
  split at h
  · rename_i t ht
    exact absurd h ((registerMap_lookup_register off t ht).1 k)
  · split_ifs at h with h₁ h₂
    · injection h with h
      omega

/-! ## The machine's parameters -/

/-- The parameters of the machine are legal (R6). -/
theorem params_legal : Config.params.Legal := by
  refine ⟨?_, ?_, ?_, ?_, ?_, ?_⟩ <;> simp [Config.params]

@[simp] theorem params_bufBytes : Config.params.bufBytes = 2048 := rfl

@[simp] theorem params_partialAlign : Config.params.partialAlign = .msb := rfl

end Sys2Proof.Machine
end

