-- ==== Sys2Proof/Laws/PerInstr.lean ====
section
/-!
SUPPORT. Families of facts about the commands as syntax, one lemma per constructor of `Instr`. `EncodeMatchesRow`: the
word a command assembles to has the fixed bits of its row of the opcode table (spec/30_encoding.md R98, R103).
-/

namespace Sys2Proof.Laws.EncodeMatchesRow

/-- The fixed bits of the encoded word are those of the command's row. -/
def Statement (i : Instr) : Prop := encode i &&& i.opcode.mask = i.opcode.pattern

theorem nop : Statement .nop := by unfold Statement; decide

theorem aeadEnc (sch : Scheme) : Statement (.aeadEnc sch) := by cases sch <;> unfold Statement <;> decide

theorem aeadDec (sch : Scheme) : Statement (.aeadDec sch) := by cases sch <;> unfold Statement <;> decide

theorem clear : Statement .clear := by unfold Statement; decide

theorem init (sch : Scheme) (bank : BankSel) (sfx : Bool) : Statement (.init sch bank sfx) := by
  cases sch <;> cases bank <;> cases sfx <;> unfold Statement <;> decide

theorem absorb (sch : Scheme) (bank : BankSel) (src : AbsorbSource) (dom : Byte) :
    Statement (.absorb sch bank src dom) := by
  have h : (dom.setWidth 32 <<< 24) &&& Opcode.absorb.mask = 0 := by
    ext j hj
    simp only [Opcode.mask]
    interval_cases j <;> simp
  cases sch <;> cases bank <;> cases src <;>
    simp only [Statement, Instr.opcode, encode, BitVec.and_or_distrib_right, h] <;> decide

theorem squeeze (sch : Scheme) (bank : BankSel) (dest : SqueezeDest) : Statement (.squeeze sch bank dest) := by
  cases sch <;> cases bank <;> cases dest <;> unfold Statement <;> decide

theorem enc (sch : Scheme) (bank : BankSel) (ls : Bool) : Statement (.enc sch bank ls) := by
  cases sch <;> cases bank <;> cases ls <;> unfold Statement <;> decide

theorem dec (sch : Scheme) (bank : BankSel) (ls : Bool) : Statement (.dec sch bank ls) := by
  cases sch <;> cases bank <;> cases ls <;> unfold Statement <;> decide

theorem permute (sch : Scheme) (bank : BankSel) (rnd : BitVec 4) : Statement (.permute sch bank rnd) := by
  have h : (rnd.setWidth 32 <<< 16) &&& Opcode.permute.mask = 0 := by
    ext j hj
    simp only [Opcode.mask]
    interval_cases j <;> simp
  cases sch <;> cases bank <;>
    simp only [Statement, Instr.opcode, encode, BitVec.and_or_distrib_right, h] <;> decide

theorem copy (dst : BankSel) : Statement (.copy dst) := by cases dst <;> unfold Statement <;> decide

theorem verify (sch : Scheme) : Statement (.verify sch) := by cases sch <;> unfold Statement <;> decide

end Sys2Proof.Laws.EncodeMatchesRow
end

