-- ==== Sys2Proof/Laws/Step.lean ====
section
/-!
SUPPORT. Once, everything a step can do (spec/20_memory.md R71, R72): which event it takes and what it answers. Claims
about `step` cite these instead of unfolding it.
-/

namespace Sys2Proof.Machine

/-- The execution of a command once its pre-checks have passed (R245, step 4 and 5). -/
def commandBody (c : Params) (i : Instr) (s : State) : State :=
  match i with
  | .nop => s.finish
  | .aeadEnc sch =>
      let r := aeadEncrypt c sch s.keyBytes (s.nonceBytes sch) s.adBytes s.messageBytes
      State.finish { (s.writeOutput r.1).zeroise with tagout := ByteReg.ofBytes r.2 }
  | .aeadDec sch =>
      let r := aeadDecrypt c sch s.keyBytes (s.nonceBytes sch) s.adBytes s.messageBytes
      State.verifyAndComplete { (s.writeOutput r.1).zeroise with texp := ByteReg.ofBytes r.2 } sch
  | .clear => s.clearSecrets.finish
  | .init sch bank sfx => (s.setBank bank (initBank c sch s.keyBytes (s.nonceBytes sch) sfx)).finish
  | .absorb sch bank src dom => (s.setBank bank (absorb c sch (s.bank bank) (s.absorbBytes src) dom)).finish
  | .squeeze sch bank dest =>
      let r := squeeze c sch (s.bank bank) (squeezeLen s sch dest)
      ((s.setBank bank r.1).deliver dest r.2).finish
  | .enc sch bank ls =>
      let r := duplexEnc c sch (s.bank bank) s.messageBytes ls (s.bank bank.other)
      ((s.setDuplexBanks bank ls r).writeOutput r.out).finish
  | .dec sch bank ls =>
      let r := duplexDec c sch (s.bank bank) s.messageBytes ls (s.bank bank.other)
      State.finish { (s.setDuplexBanks bank ls r).writeOutput r.out with outLock := true }
  | .permute sch bank rnd => (s.setBank bank (perm c sch rnd.toNat (s.bank bank))).finish
  | .copy dst => (s.setBank dst (s.bank dst.other)).finish
  | .verify sch => s.verifyAndComplete sch

/-- Every command is its pre-checks and its execution (R245). -/
theorem commandAt_eq (c : Params) (i : Instr) (s : State) :
    commandAt c i s = runCommand c i (commandBody c i) s := by cases i <;> rfl

/-- A command whose pre-checks pass executes. -/
theorem commandAt_of_pass (c : Params) (i : Instr) (s : State) (h : preCheck c i s = .none) :
    commandAt c i s = commandBody c i s := by rw [commandAt_eq, runCommand_of_pass c i _ s h]

/-- Everything a command can do: raise the code of a failed pre-check, or execute. -/
theorem commandAt_cases (c : Params) (i : Instr) (s : State) :
    (preCheck c i s = .none ∧ commandAt c i s = commandBody c i s) ∨
    (preCheck c i s ≠ .none ∧ commandAt c i s = s.raiseError (preCheck c i s)) := by
  rw [commandAt_eq]
  exact runCommand_cases c i _ s

/-- `exec` is the command at the machine's parameters: it always answers a next state. -/
theorem exec_eq (i : Instr) (s : State) : exec i s = .next (commandAt Config.params i s) := by cases i <;> rfl

/-- The dispatch of this machine is the parameterised one at its parameters. -/
theorem exec_eq_execAt : exec = execAt Config.params := funext fun i => funext fun s => exec_eq i s

/-- The engine of this machine is the parameterised one at its parameters. -/
theorem engineStep_eq (s : State) : engineStep s = engineTurn (execAt Config.params) s := by
  rw [engineStep, exec_eq_execAt]

/-- This machine is the parameterised one at its parameters (R6). -/
theorem step_eq (s : State) : step s = stepAt Config.params s := by rw [step, stepAt, exec_eq_execAt]

/-- The step at the engine's turn: the turn is taken from the list, if it stands there, and the engine moves. -/
theorem machineStep_engine (c : Params) (run : Instr → State → Host.Outcome State Fault Refusal) (s : State)
    (rest : List PortEvent) (h : (s.port = [] ∧ rest = []) ∨ s.port = .engine :: rest) :
    machineStep c run s = engineTurn run { s with port := rest } := by
  obtain ⟨hp, rfl⟩ | hp := h
  · have same : s = { s with port := [] } := by rw [← hp]
    rw [machineStep, hp, ← same]
  · rw [machineStep, hp]

/-- The step at the reset input. -/
theorem machineStep_rst (c : Params) (run : Instr → State → Host.Outcome State Fault Refusal) (s : State)
    (rest : List PortEvent) (h : s.port = .rst :: rest) :
    machineStep c run s = .next (State.resetBlock { s with port := rest }) := by rw [machineStep, h]

/-- The step at a host read. -/
theorem machineStep_read (c : Params) (run : Instr → State → Host.Outcome State Fault Refusal) (s : State)
    (width : AccessWidth) (off : BitVec 14) (rest : List PortEvent) (h : s.port = .read width off :: rest) :
    machineStep c run s = .next (portRead c { s with port := rest } width off) := by rw [machineStep, h]

/-- The step at a host write. -/
theorem machineStep_write (c : Params) (run : Instr → State → Host.Outcome State Fault Refusal) (s : State)
    (width : AccessWidth) (off : BitVec 14) (v : Reg) (rest : List PortEvent)
    (h : s.port = .write width off v :: rest) :
    machineStep c run s = .next (portWrite c { s with port := rest } width off v) := by rw [machineStep, h]

/-- Everything the engine's turn can do (R245, R256, R272), for any parameters. -/
theorem engineTurn_cases (c : Params) (s : State) :
    (s.phase = .idle ∧ engineTurn (execAt c) s = .next s) ∨
    (s.phase = .clearReset ∧ engineTurn (execAt c) s = .next s.endClearing) ∨
    (s.phase = .run ∧ ∃ e, decode s.cmd = .error e ∧
      engineTurn (execAt c) s = .next (s.raiseError .illegalCommand)) ∨
    (s.phase = .run ∧ ∃ i, decode s.cmd = .ok i ∧ engineTurn (execAt c) s = .next (commandAt c i s)) := by
  unfold engineTurn
  cases hp : s.phase with
  | idle => simp
  | clearReset => simp
  | run =>
    cases hd : decode s.cmd with
    | error e => simp
    | ok i => simp [execAt]

/-- Everything a step can do, for any parameters: the engine's turn, a reset, a host read, a host write. -/
theorem stepAt_cases (c : Params) (s t : State) (h : stepAt c s = .next t) :
    (s.port = [] ∧ engineTurn (execAt c) s = .next t) ∨
    (∃ rest, s.port = .engine :: rest ∧ engineTurn (execAt c) { s with port := rest } = .next t) ∨
    (∃ rest, s.port = .rst :: rest ∧ t = State.resetBlock { s with port := rest }) ∨
    (∃ width off rest, s.port = .read width off :: rest ∧ t = portRead c { s with port := rest } width off) ∨
    (∃ width off v rest, s.port = .write width off v :: rest ∧
      t = portWrite c { s with port := rest } width off v) := by
  unfold stepAt machineStep at h
  cases hp : s.port with
  | nil => simp_all
  | cons e rest =>
    cases e with
    | engine => simp_all
    | rst => simp_all
    | read width off => simp_all
    | write width off v => simp_all

/-- Everything the engine's turn can do on this machine. -/
theorem engineStep_cases (s : State) :
    (s.phase = .idle ∧ engineStep s = .next s) ∨
    (s.phase = .clearReset ∧ engineStep s = .next s.endClearing) ∨
    (s.phase = .run ∧ ∃ e, decode s.cmd = .error e ∧ engineStep s = .next (s.raiseError .illegalCommand)) ∨
    (s.phase = .run ∧ ∃ i, decode s.cmd = .ok i ∧ engineStep s = .next (commandAt Config.params i s)) := by
  rw [engineStep_eq]
  exact engineTurn_cases Config.params s

/-- Everything a step of this machine can do. -/
theorem step_cases (s t : State) (h : step s = .next t) :
    (s.port = [] ∧ engineStep s = .next t) ∨
    (∃ rest, s.port = .engine :: rest ∧ engineStep { s with port := rest } = .next t) ∨
    (∃ rest, s.port = .rst :: rest ∧ t = State.resetBlock { s with port := rest }) ∨
    (∃ width off rest, s.port = .read width off :: rest ∧
      t = portRead Config.params { s with port := rest } width off) ∨
    (∃ width off v rest, s.port = .write width off v :: rest ∧
      t = portWrite Config.params { s with port := rest } width off v) := by
  simpa only [engineStep_eq] using stepAt_cases Config.params s t (step_eq s ▸ h)

end Sys2Proof.Machine
end

