-- ==== Sys2Proof/Tests/Slice0.lean ====
section
/-!
SUPPORT. Tests of single operations and steps, each with its source in spec/, and for every obligation with hypotheses a
named witness: a concrete state and operands that meet them. Expected values are those of spec/95_test_vectors.md and of
the rules named; none is the model's own answer.
-/

namespace Sys2Proof.Tests

open Sys2Proof Sys2Proof.Machine

/-! ## Helpers -/

/-- The block after the clearing period (spec/70_reset_and_hazards.md R272). -/
def idleState : State := { State.reset with phase := .idle }

/-- The key K of spec/95_test_vectors.md: `00 01 .. 0f`. -/
def keyK : ByteReg := ByteReg.tabulate (BitVec.ofNat 8)

/-- The ISAP nonce NI: `10 11 .. 1f`. -/
def nonceI : ByteReg := ByteReg.tabulate fun i => BitVec.ofNat 8 (0x10 + i)

/-- LENS as SETLENS 16, nl, tl writes it. -/
def State.withLens (s : State) (nl tl : BitVec 5) : State :=
  { s with lensKey := 16, lensNonce := nl, lensTag := tl }

/-- LENS for a scheme. -/
def lensFor (sch : Scheme) : State :=
  State.withLens idleState (BitVec.ofNat 5 (nonceLen sch)) (BitVec.ofNat 5 (tagLen sch))

/-- A bank with the given words 0..4 and zero after them. -/
def bankOfWords (l : List Word) : Bank := Bank.tabulate fun i => l.getD i 0

/-- The ISAP INIT state of section 2.5. -/
def isapInitBank : Bank :=
  bankOfWords [0x6697129490f95c17, 0xdb6f334216a7aa12, 0x99dca7d26014c286, 0xbf405b9917ca14f4, 0xa2e5d3080bab5569]

/-- "plaintext". -/
def plaintextBytes : List Byte := [0x70, 0x6c, 0x61, 0x69, 0x6e, 0x74, 0x65, 0x78, 0x74]

/-- R201's first ISAP example: the tag of the zero key and nonce with no message and no AD. -/
def zeroTag : List Byte :=
  [0x7e, 0xaf, 0x3a, 0x9c, 0x88, 0xc1, 0x74, 0x1f, 0x8d, 0x1c, 0x5c, 0xab, 0x99, 0x98, 0x39, 0xf4]

/-- A buffer with the given bytes at its start. -/
def bufferOf (l : List Byte) : Memory := Memory.cleared.writeBytes 0 l

/-- The next state of a command, if it answers one. -/
def after (i : Instr) (s : State) : Option State :=
  match exec i s with
  | .next t => some t
  | _ => none

/-- The next state of a step, if it answers one. -/
def afterStep (s : State) : Option State :=
  match step s with
  | .next t => some t
  | _ => none

/-- The value STATUS reads after a command word is accepted by an idle block and completes. -/
def statusAfter (s : State) (w : Reg) : Option Reg :=
  (afterStep { s with cmd := w, phase := .run, port := [] }).map State.statusWord

/-! ## WellFormed -/

/-- R96: RND = 13 is refused by the one check of well-formedness; RND = 12 is not. -/
theorem test_wellformed_refuses_thirteen_rounds :
    (Instr.permute .isap .a 13).wellFormed = false ∧ (Instr.permute .isap .a 12).wellFormed = true := by decide

/-! ## Decode: words written out from the table of R98 -/

theorem test_decode_control :
    decode 0x00000000 = .ok .nop ∧ decode 0x00000003 = .ok .clear ∧ decode 0x00060115 = .ok (.permute .isap .a 6) := by
  decide

theorem test_decode_aead :
    decode 0x00000001 = .ok (.aeadEnc .elephant) ∧ decode 0x00000102 = .ok (.aeadDec .isap) ∧
    decode 0x00000017 = .ok (.verify .elephant) := by decide

/-- OP 0x10, SCH = 1, BANK = 1, SFX = 1: R103's `INIT.I B, SFX`. OP 0x11, SCH = 1, BANK = 1, SRC = 1, DOM = 2. -/
theorem test_decode_duplex :
    decode 0x00001510 = .ok (.init .isap .b true) ∧ decode 0x02001511 = .ok (.absorb .isap .b .obuf 0x02) ∧
    decode 0x00002412 = .ok (.squeeze .elephant .b .texp) ∧ decode 0x00000813 = .ok (.enc .elephant .a true) ∧
    decode 0x00000514 = .ok (.dec .isap .b false) ∧ decode 0x00000416 = .ok (.copy .b) := by decide

/-- The five reasons of R241, one word each. -/
theorem test_decode_illegal :
    decode 0x00000004 = .error .unknownOpcode ∧ decode 0x00004001 = .error .forbiddenBit ∧
    decode 0x00000201 = .error .reservedScheme ∧ decode 0x00003012 = .error .reservedDestination ∧
    decode 0x000D0115 = .error .tooManyRounds := by decide

theorem test_decodeTableWord_reads_all_bits :
    decodeTableWord 32 0x000C0415 = some (.permute .elephant .b 12) ∧ decodeTableWord 32 0x00000116 = none := by decide

theorem test_withFetchWord_runs_the_word : step (State.reset.withFetchWord 32 0x00000416) =
    exec (.copy .b) (State.reset.withFetchWord 32 0x00000416) := rfl

/-- The spelling of R105. -/
theorem test_spelling :
    (Instr.absorb .isap .b .obuf 0x02).spelling = "ABSORB.I B, dom=0x02, src=OBUF" ∧
    (Instr.permute .elephant .b 12).spelling = "PERMUTE.E B, 12" := by decide

/-! ## Codec and rate window: section 2.1 -/

theorem test_words_pads_with_zero : words [0, 1, 2, 3, 4, 5, 6, 7, 8] 2 = [0x0001020304050607, 0x0800000000000000] := by
  decide

theorem test_place_and_dmark :
    place .msb [0x61, 0x62, 0x63] = 0x6162630000000000 ∧ place .lsb [0x61, 0x62, 0x63] = 0x0000000000616263 ∧
    dmark .msb 0x01 3 = 0x0000010000000000 ∧ dmark .lsb 0x01 3 = 0x0000000000000001 := by decide

/-! ## Permutations: sections 2.2 and 2.3 -/

theorem test_isap_six_rounds_from_zero :
    (isapPerm Config.params 6 Bank.zero).toList.take 5 = [0xd000000168b405a2, 0x98e2c9a8e385fbe0, 0xcc4bb8caa08bf32d,
      0x781ddba298f0fe8a, 0x860c36db61830e8b] := by decide +kernel

/-- The four readings of ρ/π, row 0 and row 1 of the table: one round on the bank with lane (1,1) = 1. -/
theorem test_rho_pi_variants :
    ([PiRhoVariant.gd, .gs, .ss, .sd].map fun v =>
      (elephantRound v 1 (Bank.zero.set 6 1)).toList.take 10) =
    [[7, 2, 4, 2, 0, 0x20, 0, 0x60, 0, 0x40], [0x43, 8, 0x40, 2, 8, 0x20, 0, 0x420, 0, 0x400],
      [0x203, 0x28, 0x280, 0xa, 0xa0, 0, 0, 8, 0, 8], [0xb, 0x14, 0x28, 0x12, 0x24, 0, 0, 0x40, 0, 0x40]] := by
  decide +kernel

/-! ## Commands -/

/-- R209: NOP leaves STATUS = 0x12 when OUT_LOCK was set. -/
theorem test_nop : statusAfter { idleState with outLock := true } 0x00000000 = some 0x00000012 := by decide +kernel

/-- R208: CLEAR erases and keeps NONCE; STATUS = 2. -/
theorem test_clear : (after .clear { idleState with key := keyK, nonce := nonceI, ibuf := [(5, 1)], outLock := true }).map
    (fun t => (t.key, t.nonce, t.ibuf, t.statusWord)) = some (ByteReg.zero, nonceI, [], 0x00000002) := by decide +kernel

/-- Section 2.4: `PERMUTE.E A, 1` from the zero bank. -/
theorem test_permute_elephant : (after (.permute .elephant .a 1) idleState).map (fun t => (t.bankA, t.bankB)) =
    some (Bank.zero.set 0 1, Bank.zero) := by decide +kernel

/-- Section 2.4: `PERMUTE.I B, 12` from the zero bank, word 0; bank A unchanged. -/
theorem test_permute_isap : (after (.permute .isap .b 12) idleState).map (fun t => (t.bankB.word 0, t.bankA)) =
    some (0x7eaf3a9c88c1741f, Bank.zero) := by decide +kernel

/-- Section 2.5: `INIT.I A` with K and NI. -/
theorem test_init_isap : (after (.init .isap .a false) { lensFor .isap with key := keyK, nonce := nonceI }).map
    (fun t => t.bankA) = some isapInitBank := by decide +kernel

/-- Section 2.5: `INIT.E A` with K and NE, word 0. -/
theorem test_init_elephant : (after (.init .elephant .a false) { lensFor .elephant with key := keyK, nonce := nonceI }).map
    (fun t => t.bankA.word 0) = some 0x05f00adf5e6f9a27 := by decide +kernel

/-- Section 2.6: `ABSORB.I A, dom=0x01` of "abc", words 0 and 4. -/
theorem test_absorb : (after (.absorb .isap .a .ibuf 0x01)
      { idleState with bankA := isapInitBank, ibuf := bufferOf [0x61, 0x62, 0x63], mlen := 3 }).map
    (fun t => (t.bankA.word 0, t.bankA.word 4)) = some (0xfeaf2f18ea2b4a47, 0x457137ba60618038) := by decide +kernel

/-- Section 2.6: MOFF = 2046 with MLEN = 3 is malformed, MOFF = 4000 with MLEN = 0 is not. -/
theorem test_absorb_region :
    statusAfter { idleState with moff := 2046, mlen := 3 } 0x01000111 = some 0x00000306 ∧
    statusAfter { idleState with moff := 4000 } 0x01000111 = some 0x00000002 := by decide +kernel

/-- Section 2.7: `SQUEEZE.I A -> TAGOUT`. -/
theorem test_squeeze_tagout : (after (.squeeze .isap .a .tagout) { idleState with bankA := isapInitBank }).map
    (fun t => (t.tagout.toList, t.bankA.word 0)) =
    some ([0x66, 0x97, 0x12, 0x94, 0x90, 0xf9, 0x5c, 0x17, 0xfe, 0xaf, 0x2f, 0x18, 0xea, 0x2b, 0x4a, 0x47],
      0xfeaf2f18ea2b4a47) := by decide +kernel

/-- R170: an Elephant tag squeeze zeroes the bytes after the tag and does not permute. -/
theorem test_squeeze_pads : (after (.squeeze .elephant .a .tagout)
      { idleState with bankA := isapInitBank, tagout := nonceI }).map (fun t => (t.tagout.toList, t.bankA)) =
    some ([0x66, 0x97, 0x12, 0x94, 0x90, 0xf9, 0x5c, 0x17, 0, 0, 0, 0, 0, 0, 0, 0], isapInitBank) := by decide +kernel

/-- Section 2.8: `ENC.I A` of "plaintext". -/
theorem test_enc : (after (.enc .isap .a false)
      { idleState with bankA := isapInitBank, ibuf := bufferOf plaintextBytes, mlen := 9 }).map
    (fun t => (t.obuf.readBytes 0 9, t.bankA.word 0, t.bankA.word 4, t.statusWord)) =
    some ([0x16, 0xfb, 0x73, 0xfd, 0xfe, 0x8d, 0x39, 0x6f, 0x8a], 0xd2598a60d64f5507, 0x4b8ff718e1f787ba,
      0x00000002) := by decide +kernel

/-- Section 2.8, R172: DEC of that ciphertext gives "plaintext", the same bank, and sets OUT_LOCK. -/
theorem test_dec : (after (.dec .isap .a false)
      { idleState with
        bankA := isapInitBank, ibuf := bufferOf [0x16, 0xfb, 0x73, 0xfd, 0xfe, 0x8d, 0x39, 0x6f, 0x8a], mlen := 9 }).map
    (fun t => (t.obuf.readBytes 0 9, t.bankA.word 0, t.statusWord)) =
    some (plaintextBytes, 0xd2598a60d64f5507, 0x00000012) := by decide +kernel

/-- Section 2.8: COPY B takes A, COPY A takes B. -/
theorem test_copy :
    (after (.copy .b) { idleState with bankA := isapInitBank }).map (fun t => (t.bankA, t.bankB)) =
      some (isapInitBank, isapInitBank) ∧
    (after (.copy .a) { idleState with bankA := isapInitBank }).map (fun t => t.bankA) = some Bank.zero := by
  decide +kernel

/-- R201: AEAD_ENC.I with the zero key and nonce, no message and no AD. -/
theorem test_aead_enc : (after (.aeadEnc .isap) (lensFor .isap)).map (fun t => (t.tagout.toList, t.bankA)) =
    some (zeroTag, Bank.zero) := by decide +kernel

/-- The parameters the vectors of section 1 assume: the defaults, with the domain bytes 0x01 and 0x02. -/
def vectorParams : Params :=
  { Config.params with adDomainE := 0x01, tagDomainE := 0x02, adDomainI := 0x01, tagDomainI := 0x02 }

/-- The inputs of section 1.2, with `w` accepted. -/
def vectorState (sch : Scheme) (w : Reg) : State :=
  { lensFor sch with
    key := keyK, nonce := nonceI, alen := 5, moff := 64, mlen := 9, phase := .run, cmd := w
    ibuf := (bufferOf [0x61, 0x64, 0x61, 0x74, 0x61]).writeBytes 64 plaintextBytes }

/-- Ciphertext, tag and STATUS after one step of a block with the parameters `c`. -/
def outputAt (c : Params) (s : State) : Option (List Byte × List Byte × Reg) :=
  match stepAt c s with
  | .next t => some (t.obuf.readBytes 0 9, t.tagout.toList, t.statusWord)
  | _ => none

/-- Section 2.14: `ELEPHANT_RED_ROUNDS = 6` with LAST, and `PARTIAL_ALIGN = LSB`; R243: with `BUF_BYTES = 64` the same
inputs overrun. -/
theorem test_step_at_other_parameters :
    outputAt { vectorParams with elephantRedRounds := 6, rcStartMode := .last } (vectorState .elephant 0x00000001) =
      some ([0x92, 0xc7, 0xa0, 0x6b, 0x20, 0x93, 0x59, 0x45, 0x94],
        [0xdf, 0x94, 0x5d, 0x29, 0x52, 0xe4, 0x68, 0x19, 0, 0, 0, 0, 0, 0, 0, 0], 0x00000002) ∧
    outputAt { vectorParams with partialAlign := .lsb } (vectorState .isap 0x00000101) =
      some ([0x8e, 0xc3, 0x4e, 0x71, 0x84, 0x5f, 0x2f, 0x3f, 0x73],
        [0xbd, 0x2a, 0x16, 0x8f, 0xb9, 0x3c, 0xc9, 0xe8, 0xe2, 0xf0, 0x0f, 0xbe, 0xd5, 0xd5, 0xe3, 0xea], 0x00000002) ∧
    (outputAt { vectorParams with bufBytes := 64 } (vectorState .isap 0x00000101)).map (fun r => r.2.2) =
      some 0x00000306 := by decide +kernel

/-- Section 2.9: AEAD_DEC.I of the empty message with TAGIN = 0 fails, with K and NI. -/
theorem test_aead_dec_mismatch : (after (.aeadDec .isap)
      { lensFor .isap with key := keyK, nonce := nonceI, obuf := [(7, 1)], cmd := 0x00000102 }).map
    (fun t => (t.statusWord, t.errcmd, t.obuf)) = some (0x00000206, 0x00000102, []) := by decide +kernel

/-- R202: the tag of R201's first example is accepted. -/
theorem test_aead_dec_match : (after (.aeadDec .isap) { lensFor .isap with tagin := ByteReg.ofBytes zeroTag }).map
    (fun t => (t.statusWord, t.texp)) = some (0x0000000A, ByteReg.zero) := by decide +kernel

/-- R206: after reset a TAGIN of zero with the right TAGLEN matches and releases OUT_LOCK. -/
theorem test_verify_zero : statusAfter { lensFor .elephant with outLock := true } 0x00000017 = some 0x0000000A := by
  decide +kernel

/-- R206: Elephant compares 8 bytes, so byte 8 of TAGIN is ignored; byte 7 is not. -/
theorem test_verify_compares_eight_bytes :
    statusAfter { lensFor .elephant with tagin := ByteReg.zero.set 8 1 } 0x00000017 = some 0x0000000A ∧
    statusAfter { lensFor .elephant with tagin := ByteReg.zero.set 7 1 } 0x00000017 = some 0x00000206 := by
  decide +kernel

/-- Section 2.5: LENS = 0 and a wrong NONCELEN give INVALID_PARAMETER. -/
theorem test_lens_is_checked :
    statusAfter idleState 0x00000010 = some 0x00000106 ∧
    statusAfter (State.withLens idleState 8 8) 0x00000110 = some 0x00000106 := by decide +kernel

/-! ## The host port -/

/-- R64: the first byte of a string is the most significant byte of its register. -/
theorem test_nonce_byte_order :
    ((hostWrite Config.params idleState 0x054 0x14151617).nonce.toList).drop 4 = [0x14, 0x15, 0x16, 0x17, 0, 0, 0, 0, 0,
      0, 0, 0] := by decide

/-- R68 and R63 while busy: an operand write sets OVR, a write to a read-only register does not. -/
theorem test_overrun :
    (hostWrite Config.params State.reset 0x014 1).ovr = true ∧ (hostWrite Config.params State.reset 0x070 1).ovr = false :=
  by decide

/-- R29: SRST discards IRQ_EN, from any phase. -/
theorem test_soft_reset : hostWrite Config.params { idleState with key := keyK, irqEn := true } 0x008 3 = State.reset := rfl

/-! ## Witnesses: states and operands that meet the hypotheses of the obligations -/

theorem test_witness_DecodeOfEncodeIsTheCommand :
    (Instr.permute .isap .b 12).WellFormed ∧ (Instr.absorb .isap .b .obuf 0xFF).WellFormed := by decide

theorem test_witness_EncodeOfDecodeIsTheWord : decode 0xFF001511 = .ok (.absorb .isap .b .obuf 0xFF) := by decide

theorem test_witness_LegalWordsAreTheTablesWords :
    (decode 0x000C0515).isOk = true ∧ (decode 0x000D0515).isOk = false ∧ (decode 0x00002112).isOk = true ∧
    (decode 0x00003112).isOk = false ∧ (decode 0x00000301).isOk = false := by decide

/-- A running state with `w` latched. -/
def running (w : Reg) : State := { idleState with cmd := w, phase := .run }

theorem test_witness_StepRunsTheDecodedCommand :
    ((running 0x00000416).phase = .run ∧ (running 0x00000416).EngineTurn [] ∧ decode 0x00000416 = .ok (.copy .b)) ∧
    ({ running 0 with port := [.engine, .rst] } : State).EngineTurn [.rst] := by decide

theorem test_witness_IllegalWordCompletesWithIllegalCommand :
    (running 0x00000116).phase = .run ∧ (running 0x00000116).EngineTurn [] ∧
    decode (running 0x00000116).cmd = .error .forbiddenBit := by decide

/-- The engine's turn while idle, with and without events still to come. -/
theorem test_witness_EveryStepAnswersANextState :
    (idleState.phase = .idle ∧ idleState.EngineTurn []) ∧
    ({ idleState with port := [.engine, .rst] } : State).phase = .idle ∧
    ({ idleState with port := [.engine, .rst] } : State).EngineTurn [.rst] := by decide

theorem test_witness_CmdWriteIsAcceptedOrDropped :
    (({ idleState with port := [.write .word 0x010 3] } : State).phase = .idle ∧
      ({ idleState with port := [.write .word 0x010 3] } : State).port = .write .word 0x010 3 :: []) ∧
    ({ running 0 with port := [.write .word 0x010 3] } : State).phase ≠ .idle ∧
    ({ State.reset with port := [.write .word 0x010 3] } : State).phase ≠ .idle := by decide

theorem test_witness_AcceptedCommandCompletes :
    ({ idleState with port := [.write .word 0x010 0x116, .engine] } : State).phase = .idle ∧
    ({ idleState with port := [.write .word 0x010 0x116, .engine] } : State).port =
      .write .word 0x010 0x116 :: .engine :: [] := by decide

theorem test_witness_WrongLengthsRaiseInvalidParameter :
    ¬((State.withLens idleState 7 8).DeclaresKey ∧ (State.withLens idleState 7 8).DeclaresNonce .elephant) ∧
    ¬((State.withLens idleState 16 15).DeclaresKey ∧ (State.withLens idleState 16 15).DeclaresNonce .isap ∧
      (State.withLens idleState 16 15).DeclaresTag .isap) ∧
    ¬(State.withLens idleState 8 9).DeclaresTag .elephant := by decide

theorem test_witness_OverrunningRegionsRaiseMalformedInput :
    let s : State := { lensFor .isap with moff := 2046, doff := 2046, mlen := 3 }
    ¬Fits Config.params s.moff s.mlen ∧ ¬Fits Config.params s.doff s.mlen ∧ ¬s.DuplexRegionsFit Config.params ∧
    ¬s.AeadRegionsFit Config.params ∧ s.DeclaresKey ∧ s.DeclaresNonce .isap ∧ s.DeclaresTag .isap := by decide

/-- Both kinds of end: a failed pre-check and a failed verification. -/
theorem test_witness_ErrorsComeFromPreChecksOrVerification :
    (idleState.err = false ∧ (after (.aeadEnc .isap) idleState).map State.err = some true) ∧
    (after (.verify .isap) { lensFor .isap with tagin := nonceI }).map State.errcode = some .authenticationFailure := by
  decide +kernel

theorem test_witness_PermuteChangesTheNamedBankOnly : (12 : BitVec 4).toNat ≤ 12 ∧ (0 : BitVec 4).toNat ≤ 12 := by decide

theorem test_witness_InitLoadsTheNamedBankOnly :
    ((lensFor .elephant).DeclaresKey ∧ (lensFor .elephant).DeclaresNonce .elephant) ∧
    (lensFor .isap).DeclaresKey ∧ (lensFor .isap).DeclaresNonce .isap := by decide

theorem test_witness_InitialBankHoldsKeyNonceAndSuffix :
    keyK.toList.length = 16 ∧ (nonceI.toList.take 8).length = 8 ∧ nonceI.toList.length = 16 := by decide

/-- The last three bytes of the buffer, from IBUF and from OBUF. -/
theorem test_witness_AbsorbChangesTheNamedBankOnly :
    let s : State := { idleState with moff := 2045, mlen := 3, ibuf := [(2047, 1)], obuf := [(2045, 2)] }
    Fits Config.params s.moff s.mlen ∧ ([0, 0, 1] : List Byte).length = s.mlen.toNat ∧
    (∀ j < s.mlen.toNat, ([0, 0, 1] : List Byte).getD j 0 = s.ibuf.read (s.moff.toNat + j)) ∧
    (∀ j < s.mlen.toNat, ([2, 0, 0] : List Byte).getD j 0 = s.obuf.read (s.moff.toNat + j)) := by decide

theorem test_witness_AbsorbMarksTheLastBlockOnly :
    (0 < (plaintextBytes.take 8).length ∧ (plaintextBytes.take 8).length ≤ 8) ∧
    8 ∣ (plaintextBytes.take 8).length ∧ plaintextBytes.drop 8 ≠ [] := by decide

/-- The output region ends with the buffer. -/
theorem test_witness_SqueezeToObufWritesTheOutputRegion :
    let s : State := { idleState with obuf := [(2047, 1)], doff := 2046, mlen := 2 }
    s.obuf.wf ∧ Fits Config.params s.doff s.mlen := by decide

theorem test_witness_SqueezeToTagRegisterPadsWithZero : ∃ r, r = squeeze Config.params .isap (idleState.bank .a) 16 :=
  ⟨_, rfl⟩

/-- Both regions end with their buffers; a result exists for each of the two commands. -/
theorem test_witness_EncAndDec :
    let s : State := { idleState with moff := 2039, doff := 2039, mlen := 9, ibuf := [(2047, 7)], obuf := [(2047, 1)] }
    let msg : List Byte := [0, 0, 0, 0, 0, 0, 0, 0, 7]
    (s.obuf.wf ∧ s.DuplexRegionsFit Config.params ∧ s.ibuf.Holds s.moff s.mlen msg) ∧
    (∃ r, r = duplexEnc Config.params .isap (s.bank .a) msg true (s.bank BankSel.a.other)) ∧
    ∃ r, r = duplexDec Config.params .isap (s.bank .a) msg true (s.bank BankSel.a.other) :=
  ⟨by decide, ⟨_, rfl⟩, ⟨_, rfl⟩⟩

/-- A state that AEAD_ENC and AEAD_DEC run on, with regions that end with the buffers. -/
def aeadReady (sch : Scheme) : State :=
  { lensFor sch with
    key := keyK, nonce := nonceI, aoff := 2043, alen := 5, moff := 2039, mlen := 9, doff := 2039, ibuf := [(2047, 7)] }

/-- The AD of `aeadReady`. -/
def aeadReadyAd : List Byte := [0, 0, 0, 0, 7]

/-- The message of `aeadReady`. -/
def aeadReadyMessage : List Byte := [0, 0, 0, 0, 0, 0, 0, 0, 7]

/-- The hypotheses of AEAD_ENC and AEAD_DEC on the state, whatever TAGIN holds. -/
theorem test_aead_ready (sch : Scheme) (r : ByteReg) :
    let s : State := { aeadReady sch with tagin := r }
    s.obuf.wf ∧ s.DeclaresKey ∧ s.DeclaresNonce sch ∧ s.DeclaresTag sch ∧ s.AeadRegionsFit Config.params ∧
    s.ibuf.Holds s.aoff s.alen aeadReadyAd ∧ s.ibuf.Holds s.moff s.mlen aeadReadyMessage := by
  have buffers : Memory.wf [] ∧ Memory.Holds [(2047, 7)] 2043 5 aeadReadyAd ∧
      Memory.Holds [(2047, 7)] 2039 9 aeadReadyMessage ∧ Fits Config.params 2043 5 ∧ Fits Config.params 2039 9 := by
    decide
  obtain ⟨wf, ad, message, adFits, messageFits⟩ := buffers
  cases sch <;> exact ⟨wf, rfl, rfl, rfl, ⟨adFits, messageFits, messageFits⟩, ad, message⟩

/-- A main state, a result and a tag exist for both schemes; the AD may be empty. -/
theorem test_witness_AeadEncWritesCiphertextAndTag :
    (∃ main q ct tag, MainState Config.params .elephant keyK.toList (nonceI.toList.take 8) aeadReadyAd main ∧
      q = duplexEnc Config.params .elephant main aeadReadyMessage true main ∧ ct = q.out ∧
      tag = (squeeze Config.params .elephant q.other 8).2) ∧
    (∃ main q ct tag, MainState Config.params .isap keyK.toList (nonceI.toList.take 16) aeadReadyAd main ∧
      q = duplexEnc Config.params .isap main aeadReadyMessage false main ∧ ct = q.out ∧
      IsapTagOf Config.params keyK.toList (nonceI.toList.take 16) ct tag) ∧
    (lensFor .isap).ibuf.Holds (lensFor .isap).aoff (lensFor .isap).alen [] ∧
    ∃ main, MainState Config.params .isap keyK.toList (nonceI.toList.take 16) [] main :=
  ⟨⟨_, _, _, _, rfl, rfl, rfl, rfl⟩, ⟨_, _, _, _, rfl, rfl, rfl, rfl⟩, by decide, ⟨_, rfl⟩⟩

/-- A main state, a result and a tag exist for both schemes, and for every tag a TAGIN that equals it (the first clause)
and one that differs from it in byte 7 only (the second); `test_aead_ready` holds for both. -/
theorem test_witness_AeadDecReleasesOrErasesPlaintext :
    (∃ main q pt tag, MainState Config.params .elephant keyK.toList (nonceI.toList.take 8) aeadReadyAd main ∧
      q = duplexDec Config.params .elephant main aeadReadyMessage true main ∧ pt = q.out ∧
      tag = (squeeze Config.params .elephant q.other 8).2) ∧
    (∃ main q pt tag, MainState Config.params .isap keyK.toList (nonceI.toList.take 16) aeadReadyAd main ∧
      q = duplexDec Config.params .isap main aeadReadyMessage false main ∧ pt = q.out ∧
      IsapTagOf Config.params keyK.toList (nonceI.toList.take 16) aeadReadyMessage tag) ∧
    ∀ (sch : Scheme) (tag : List Byte),
      (∃ r : ByteReg, ∀ i < tagLen sch, r.byte i = tag.getD i 0) ∧
      ∃ r : ByteReg, ∃ i < tagLen sch, r.byte i ≠ tag.getD i 0 := by
  refine ⟨⟨_, _, _, _, rfl, rfl, rfl, rfl⟩, ⟨_, _, _, _, rfl, rfl, rfl, rfl⟩, fun sch tag => ⟨⟨ByteReg.ofBytes tag, ?_⟩,
    (ByteReg.ofBytes tag).set 7 (tag.getD 7 0 + 1), 7, by cases sch <;> decide, ?_⟩⟩
  · intro i hi
    exact ByteReg.byte_ofBytes _ _ (by cases sch <;> simp only [tagLen] at hi <;> omega)
  · rw [ByteReg.byte_eq_getElem _ _ (by decide)]
    simp

theorem test_witness_VerifyReleasesOrErasesOutput :
    ((lensFor .isap).DeclaresTag .isap ∧ ∀ i < 16, (lensFor .isap).texp.byte i = (lensFor .isap).tagin.byte i) ∧
    ∃ i < 8, ({ lensFor .elephant with tagin := ByteReg.zero.set 7 1 } : State).texp.byte i ≠
      ({ lensFor .elephant with tagin := ByteReg.zero.set 7 1 } : State).tagin.byte i := by
  exact ⟨by decide, 7, by decide, by decide⟩

theorem test_witness_IsapPermutation :
    (11 < 12) ∧ (0 < 1) ∧ 46 ≤ (List.replicate 46 (0 : Word)).length := by decide

/-- Column parities and their mix exist for every bank, at the last lane. -/
theorem test_witness_ElephantStepsLaneByLane :
    4 < 5 ∧ ∃ col d : Nat → Word,
      (∀ z < 5, col z = isapInitBank.word z ^^^ isapInitBank.word (z + 5) ^^^ isapInitBank.word (z + 10) ^^^
        isapInitBank.word (z + 15) ^^^ isapInitBank.word (z + 20)) ∧
      ∀ z < 5, d z = col ((z + 4) % 5) ^^^ rotl (col ((z + 1) % 5)) 1 :=
  ⟨by decide, _, _, fun _ _ => rfl, fun _ _ => rfl⟩

theorem test_witness_RhoPiUnderItsFourReadings : (4 < 5 ∧ 4 < 5) ∧ (0 < 5 ∧ 0 < 5) := by decide

/-- The tables as functions, a sequence of banks that follows the rounds, and the ends of the range of r and n. -/
theorem test_witness_RoundConstantIndex :
    ((1 ≤ 12 ∧ 12 ≤ 12 ∧ 11 < 12) ∧ (1 ≤ 1 ∧ 1 ≤ 12 ∧ 0 < 1)) ∧
    (∃ ci : Nat → Word, ∀ k < 12,
      ci k = [0xf0, 0xe1, 0xd2, 0xc3, 0xb4, 0xa5, 0x96, 0x87, 0x78, 0x69, 0x5a, 0x4b].getD k 0) ∧
    (∃ ce : Nat → Word, ∀ k < 12, ce k = [0x0000000000000001, 0x0000000000008082, 0x800000000000808A,
      0x8000000080008000, 0x000000000000808B, 0x0000000080000001, 0x8000000080008081, 0x8000000000008009,
      0x000000000000008A, 0x0000000000000088, 0x0000000080008009, 0x000000008000000A].getD k 0) ∧
    ∀ (round : Nat → Bank → Bank) (n : Nat), ∃ f : Nat → Bank, ∀ k < n, f (k + 1) = round k (f k) :=
  ⟨by decide, ⟨_, fun _ _ => rfl⟩, ⟨_, fun _ _ => rfl⟩, fun round _ => ⟨Nat.rec Bank.zero round, fun _ _ => rfl⟩⟩

theorem test_witness_RateWindowOfAChunk :
    (0 < ([0x61] : List Byte).length ∧ ([0x61] : List Byte).length ≤ 8) ∧ (plaintextBytes.take 8).length = 8 := by decide

/-- A full block with a rest, under lock-step. -/
theorem test_witness_DuplexFeedsThePlaintextBack :
    (0 < (plaintextBytes.take 8).length ∧ (plaintextBytes.take 8).length ≤ 8 ∧
      (plaintextBytes.drop 8 ≠ [] → (plaintextBytes.take 8).length = 8)) ∧
    ∃ p r q, p = xorBytes (plaintextBytes.take 8) (keystream .msb isapInitBank 8) ∧
      r = duplexEnc Config.params .isap
        (permReduced Config.params .isap (isapInitBank.set 0 (isapInitBank.word 0 ^^^ place .msb (plaintextBytes.take 8))))
        (plaintextBytes.drop 8) false isapInitBank ∧
      q = duplexDec Config.params .isap
        (permReduced Config.params .isap (isapInitBank.set 0 (isapInitBank.word 0 ^^^ place .msb p)))
        (plaintextBytes.drop 8) false isapInitBank :=
  ⟨by decide, _, _, _, rfl, rfl, rfl⟩

theorem test_witness_DuplexDecInvertsDuplexEnc :
    ∃ r, r = duplexEnc Config.params .isap isapInitBank plaintextBytes true isapInitBank := ⟨_, rfl⟩

/-- Two strings of three blocks, one of 17 bytes and one of 24. -/
theorem test_witness_ShortIsapTagIgnoresTheCiphertext :
    nb (List.replicate 17 (1 : Byte)).length = nb (List.replicate 24 (2 : Byte)).length ∧
    (List.replicate 17 (1 : Byte)).length ≤ 24 ∧ (List.replicate 24 (2 : Byte)).length ≤ 24 := by decide

/-- A state that encrypts "plaintext" from the start of IBUF to the start of OBUF. -/
def encryptReady : State :=
  { lensFor .elephant with key := keyK, nonce := nonceI, ibuf := bufferOf plaintextBytes, mlen := 9 }

/-- The state that decrypts what `encryptReady` wrote, to the end of OBUF. -/
def decryptReady (t : State) : State := { encryptReady with ibuf := t.obuf, tagin := t.tagout, doff := 2039 }

theorem test_witness_AeadDecOfAeadEncReturnsThePlaintext :
    ∃ t, exec (.aeadEnc .elephant) encryptReady = .next t ∧
      (encryptReady.obuf.wf ∧ encryptReady.DeclaresKey ∧ encryptReady.DeclaresNonce .elephant ∧
        encryptReady.AeadRegionsFit Config.params) ∧
      ((decryptReady t).obuf.wf ∧ (decryptReady t).DeclaresKey ∧ (decryptReady t).DeclaresNonce .elephant ∧
        (decryptReady t).DeclaresTag .elephant ∧ (decryptReady t).AeadRegionsFit Config.params) ∧
      (decryptReady t).key = encryptReady.key ∧
      (∀ i < 8, (decryptReady t).nonce.byte i = encryptReady.nonce.byte i) ∧
      (decryptReady t).alen = encryptReady.alen ∧
      (∀ j < encryptReady.alen.toNat, (decryptReady t).ibuf.read ((decryptReady t).aoff.toNat + j) =
        encryptReady.ibuf.read (encryptReady.aoff.toNat + j)) ∧
      (decryptReady t).mlen = encryptReady.mlen ∧
      (∀ j < encryptReady.mlen.toNat, (decryptReady t).ibuf.read ((decryptReady t).moff.toNat + j) =
        t.obuf.read (encryptReady.doff.toNat + j)) ∧
      ∀ i < 8, (decryptReady t).tagin.byte i = t.tagout.byte i := by
  refine ⟨_, exec_eq _ _, by decide, ?_⟩
  generalize commandAt Config.params (.aeadEnc .elephant) encryptReady = t
  have fits : Fits Config.params 0 0 ∧ Fits Config.params 0 9 ∧ Fits Config.params 2039 9 := by decide
  exact ⟨⟨Memory.wf_nil, rfl, rfl, rfl, fits⟩, rfl, fun _ _ => rfl, rfl, fun j hj => absurd hj (Nat.not_lt_zero j), rfl,
    fun _ _ => rfl, fun _ _ => rfl⟩

theorem test_witness_UnsupportedAccessChangesNothing :
    (AccessWidth.byte ≠ .word ∨ (0x000 : BitVec 14).toNat % 4 ≠ 0) ∧
    (AccessWidth.word ≠ .word ∨ (0x3FFD : BitVec 14).toNat % 4 ≠ 0) ∧
    ({ idleState with port := [.read .half 0x00C] } : State).port = .read .half 0x00C :: [] ∧
    ({ idleState with port := [.write .word 0x011 1] } : State).port = .write .word 0x011 1 :: [] := by decide

theorem test_witness_ReadsHaveNoSideEffect :
    (0x3FFC : BitVec 14).toNat % 4 = 0 ∧
    ({ idleState with port := [.read .word 0x3FFC] } : State).port = .read .word 0x3FFC :: [] := by decide

/-- The busy window at the edges of its clauses. -/
theorem test_witness_BusyWindowDropsOperandAccesses :
    State.reset.phase ≠ .idle ∧
    (∀ off ∈ [0x010, 0x028, 0x040, 0x06C, 0x1000, 0x17FC], off % 4 = 0 ∧
      ((0x010 ≤ off ∧ off < 0x02C) ∨ (0x040 ≤ off ∧ off < 0x070) ∨
        (0x1000 ≤ off ∧ off < 0x1000 + Config.params.bufBytes))) ∧
    ∀ off ∈ [0x000, 0x004, 0x02C, 0x03C, 0x070, 0xFFC, 0x1800, 0x2000, 0x3FFC], off % 4 = 0 ∧
      (off < 0x008 ∨ (0x02C ≤ off ∧ off < 0x040) ∨ (0x070 ≤ off ∧ off < 0x1000) ∨
        0x1000 + Config.params.bufBytes ≤ off) := by decide

/-- The last word of a buffer, locked, and unlocked while idle. -/
theorem test_witness_BufferWords :
    4 * 511 < Config.params.bufBytes ∧ ({ idleState with outLock := true } : State).outLock = true ∧
    idleState.outLock = false ∧ idleState.phase = .idle ∧ idleState.ibuf.wf := by decide

theorem test_witness_OperandRegistersHoldWhatIsWritten : idleState.phase = .idle ∧ 3 < 4 := by decide

theorem test_witness_StatusFieldsAndInterrupt :
    ∃ w ctrl, w = hostRead Config.params idleState 0x00C ∧ ctrl = hostRead Config.params idleState 0x008 ∧
      (0xFFFFFFFD : Reg).getLsbD 1 = false := ⟨_, _, rfl, rfl, by decide⟩

/-- The edges of the unmapped ranges and of the OBUF window, at this machine's parameters, which are legal. -/
theorem test_witness_ConstantRegistersAndUnmappedOffsets :
    Config.params.Legal ∧
    (∀ off ∈ [0x080, 0xFFC, 0x1800, 0x1FFC, 0x2800, 0x3FFC],
      (0x080 ≤ off ∧ off < 0x1000) ∨ (0x1000 + Config.params.bufBytes ≤ off ∧ off < 0x2000) ∨
        0x2000 + Config.params.bufBytes ≤ off) ∧
    4 * 0 < Config.params.bufBytes ∧ 4 * 511 < Config.params.bufBytes :=
  ⟨params_legal, by decide, by decide, by decide⟩

theorem test_witness_ResetErasesEverything :
    ({ running 0 with port := [.rst] } : State).port = .rst :: [] ∧
    (({ running 0 with port := [.write .word 0x008 2] } : State).port = .write .word 0x008 2 :: [] ∧
      (2 : Reg).getLsbD 1 = true) ∧
    State.reset.phase = .clearReset ∧ State.reset.EngineTurn [] := by decide

/-- The idle state meets the invariant at this machine's parameters, which are legal, and a CMD write in it answers a next
state, of `step` and of `stepAt`. -/
theorem test_witness_StepKeepsTheInvariant :
    Config.params.Legal ∧ Inv Config.params idleState ∧
    (∃ t, step { idleState with port := [.write .word 0x010 3] } = .next t) ∧
    ∃ t, stepAt Config.params { idleState with port := [.write .word 0x010 3] } = .next t :=
  ⟨params_legal, ⟨by decide, by decide, by decide, by decide, by decide, by decide, by decide, by decide, by decide⟩,
    ⟨_, rfl⟩, ⟨_, rfl⟩⟩

/-- OUT_LOCK falls at CLEAR and at a matching VERIFY. -/
theorem test_witness_OutLockEndsOnlyByVerificationClearOrReset :
    (afterStep { running 0x00000003 with outLock := true }).map State.outLock = some false ∧
    (afterStep { State.withLens (running 0x00000117) 16 16 with outLock := true }).map State.outLock = some false := by
  decide +kernel

/-- KEY changes at a write of KEY3 and at CLEAR. -/
theorem test_witness_KeyChangesOnlyByWriteClearOrReset :
    (afterStep { idleState with port := [.write .word 0x04C 1] }).map (fun t => decide (t.key ≠ idleState.key)) =
      some true ∧
    (afterStep { running 0x00000003 with key := keyK }).map (fun t => decide (t.key ≠ keyK)) = some true := by
  decide +kernel

theorem test_witness_AuthOkRisesOnlyOnAMatchingTag :
    idleState.authOk = false ∧ (afterStep (State.withLens (running 0x00000117) 16 16)).map State.authOk = some true := by
  decide +kernel

/-- Two states with the same lengths and regions and different keys; two with different offsets in which the pre-checks
of `ABSORB.I A, dom=0x01` end alike. -/
theorem test_witness_LatencyIsIndependentOfData :
    let s := lensFor .isap
    let t : State := { s with key := keyK }
    let u : State := { s with moff := 4, key := keyK }
    (s.lensKey = t.lensKey ∧ s.lensNonce = t.lensNonce ∧ s.lensTag = t.lensTag ∧ s.aoff = t.aoff ∧ s.alen = t.alen ∧
      s.moff = t.moff ∧ s.mlen = t.mlen ∧ s.doff = t.doff ∧ s.key ≠ t.key) ∧
    (s.mlen = u.mlen ∧ s.alen = u.alen ∧ s.moff ≠ u.moff ∧
      preCheckWord Config.params 0x01000111 s = preCheckWord Config.params 0x01000111 u) ∧
    (12 : BitVec 4).toNat ≤ 12 := by decide

end Sys2Proof.Tests
end

section
/-!
The invariant along a step (O56). `Executing` is what `Inv` says of a state whose command is being executed; every
update a command makes keeps it, and completion takes it back to `Inv`. The engine's turn, the resets and the host port
follow, one lemma per operation.
-/

namespace Sys2Proof.Machine

/-! ## Buffers of BUF_BYTES bytes -/

/-- A buffer as `Inv` has it: in canonical form, with every listed byte inside BUF_BYTES (R38). -/
abbrev Memory.Fits (c : Params) (m : Memory) : Prop := m.wf ∧ m.Within c.bufBytes

theorem Memory.fits_nil (c : Params) : Memory.Fits c [] := ⟨Memory.wf_nil, by simp⟩

/-- A string written inside the buffer, or an empty one anywhere, keeps the buffer's form and range. -/
theorem Memory.Fits.writeBytes {c : Params} {m : Memory} (h : m.Fits c) (off : Nat) (bs : List Byte)
    (hin : bs.length = 0 ∨ off + bs.length ≤ c.bufBytes) : (m.writeBytes off bs).Fits c := by
  obtain ⟨hwf, hwithin⟩ := h
  refine ⟨Memory.wf_writeBytes m off bs hwf, fun cell hcell => ?_⟩
  rcases Memory.mem_writeBytes m off bs cell hcell with hold | hnew
  · exact hwithin cell hold
  · omega

/-- A host write of a whole buffer word inside the buffer (R65). -/
theorem Memory.Fits.writeReg {c : Params} {m : Memory} (h : m.Fits c) (off : Nat) (v : Reg)
    (hin : off + 4 ≤ c.bufBytes) : (m.writeReg off v).Fits c := h.writeBytes off _ (.inr hin)

/-- An aligned IBUF word lies in the buffer whole, since BUF_BYTES is a multiple of 8 (R6, R61). -/
theorem portTarget_ibuf_word_fits {c : Params} (hlegal : c.Legal) {off k : Nat} (haligned : off % 4 = 0)
    (htarget : portTarget c off = .ibuf k) : k + 4 ≤ c.bufBytes := by
  obtain ⟨-, -, hmultiple, -⟩ := hlegal
  obtain ⟨hoff, hk⟩ := portTarget_eq_ibuf c off k htarget
  omega

/-- The output region of a command that checks it and passes its pre-checks is empty or lies in OBUF (R243, R245). -/
theorem outputRegion_fits_of_pass {c : Params} {i : Instr} {s : State} (hpass : preCheck c i s = .none)
    (hchecked : s.outputRegion ∈ checkedRegions s i) :
    s.mlen.toNat = 0 ∨ s.doff.toNat + s.mlen.toNat ≤ c.bufBytes := by
  rcases preCheck_cases c i s with ⟨e, -⟩ | ⟨e, -⟩ | ⟨e, -⟩ | ⟨-, -, -, hregions⟩
  · simp [e] at hpass
  · simp [e] at hpass
  · simp [e] at hpass
  · exact Region.fits c s.outputRegion (by simpa using List.any_eq_false.mp hregions _ hchecked)

@[simp] theorem length_messageBytes (s : State) : s.messageBytes.length = s.mlen.toNat := by simp [State.messageBytes]

/-! ## While a command executes -/

/-- What the invariant says of a state whose command is being executed. It speaks neither of `phase`, which completion
sets, nor of the banks, TEXP and OUT_LOCK, which a command may set as it likes while AUTH_OK is 0. -/
structure Executing (c : Params) (s : State) : Prop where
  ibuf_fits : s.ibuf.Fits c
  obuf_fits : s.obuf.Fits c
  err : s.err = false
  errcode : s.errcode = .none
  errcmd : s.errcmd = 0
  authOk : s.authOk = false

/-- A busy block that meets the invariant has no error recorded and no tag verified (R248). -/
theorem Inv.executing {c : Params} {s : State} (h : Inv c s) (hbusy : s.phase ≠ .idle) : Executing c s := by
  obtain ⟨-, herr, hauth⟩ := h.busy_clean hbusy
  have hcode : s.errcode = .none := by
    by_contra hne
    simp [h.err_iff.mpr hne] at herr
  exact ⟨⟨h.ibuf_wf, h.ibuf_within⟩, ⟨h.obuf_wf, h.obuf_within⟩, herr, hcode, h.errcmd_zero herr, hauth⟩

namespace Executing

variable {c : Params} {s : State}

theorem setBank (h : Executing c s) (sel : BankSel) (v : Bank) : Executing c (s.setBank sel v) := by
  cases sel <;> exact { h with }

theorem setDuplexBanks (h : Executing c s) (bank : BankSel) (ls : Bool) (r : DuplexResult) :
    Executing c (s.setDuplexBanks bank ls r) := by
  cases ls
  · exact h.setBank bank r.bank
  · exact (h.setBank bank r.bank).setBank bank.other r.other

theorem zeroise (h : Executing c s) : Executing c s.zeroise := { h with }

theorem setTagout (h : Executing c s) (r : ByteReg) : Executing c { s with tagout := r } := { h with }

theorem setTexp (h : Executing c s) (r : ByteReg) : Executing c { s with texp := r } := { h with }

theorem setOutLock (h : Executing c s) (b : Bool) : Executing c { s with outLock := b } := { h with }

theorem clearSecrets (h : Executing c s) : Executing c s.clearSecrets :=
  { h with ibuf_fits := Memory.fits_nil c, obuf_fits := Memory.fits_nil c }

/-- MLEN bytes of output, when the output region is empty or lies in OBUF. -/
theorem writeOutput (h : Executing c s) (hfit : s.mlen.toNat = 0 ∨ s.doff.toNat + s.mlen.toNat ≤ c.bufBytes)
    {out : List Byte} (hlen : out.length = s.mlen.toNat) : Executing c (s.writeOutput out) :=
  { h with obuf_fits := h.obuf_fits.writeBytes _ out (hlen ▸ hfit) }

/-- Completion with any code: the error record stays consistent, and the block is idle (R247). -/
theorem inv_complete (h : Executing c s) (e : ErrorCode) : Inv c (s.complete e) where
  ibuf_wf := h.ibuf_fits.1
  obuf_wf := h.obuf_fits.1
  ibuf_within := h.ibuf_fits.2
  obuf_within := h.obuf_fits.2
  err_iff := by cases e <;> simp [State.complete, ErrorCode.isError, h.err, h.errcode]
  errcmd_zero := by cases e <;> simp [State.complete, ErrorCode.isError, h.errcmd]
  busy_clean := fun hbusy => absurd rfl hbusy
  auth_released := fun hauth => by simp [h.authOk] at hauth
  clearing_erased := fun hclear => by simp at hclear

theorem inv_finish (h : Executing c s) : Inv c s.finish := h.inv_complete .none

/-- The verify step and its completion: a match releases the output with TEXP used up, a mismatch erases OBUF and
records its error (R206, R207). -/
theorem inv_verifyAndComplete (h : Executing c s) (sch : Scheme) : Inv c (s.verifyAndComplete sch) := by
  rcases verifyAndComplete_cases s sch with ⟨-, e⟩ | ⟨-, e⟩ <;> rw [e]
  · exact { h.inv_finish with
        busy_clean := fun hbusy => absurd rfl hbusy
        auth_released := fun _ => ⟨rfl, rfl⟩
        clearing_erased := fun hclear => by simp at hclear }
  · have hmismatch : Executing c { s with texp := ByteReg.zero, obuf := [], outLock := false } :=
      { h with obuf_fits := Memory.fits_nil c }
    exact hmismatch.inv_complete .authenticationFailure

/-- Every command whose pre-checks pass executes and completes into the invariant (R245, R247). -/
theorem inv_commandBody (h : Executing c s) (i : Instr) (hpass : preCheck c i s = .none) :
    Inv c (commandBody c i s) := by
  cases i with
  | nop => exact h.inv_finish
  | clear => exact h.clearSecrets.inv_finish
  | init sch bank sfx => exact (h.setBank bank _).inv_finish
  | absorb sch bank src dom => exact (h.setBank bank _).inv_finish
  | permute sch bank rnd => exact (h.setBank bank _).inv_finish
  | copy dst => exact (h.setBank dst _).inv_finish
  | verify sch => exact h.inv_verifyAndComplete sch
  | aeadEnc sch =>
    have hfit := outputRegion_fits_of_pass hpass (by simp [checkedRegions])
    exact ((h.writeOutput hfit (by simp)).zeroise.setTagout _).inv_finish
  | aeadDec sch =>
    have hfit := outputRegion_fits_of_pass hpass (by simp [checkedRegions])
    exact ((h.writeOutput hfit (by simp)).zeroise.setTexp _).inv_verifyAndComplete sch
  | squeeze sch bank dest =>
    have hbank := h.setBank bank (squeeze c sch (s.bank bank) (squeezeLen s sch dest)).1
    cases dest with
    | tagout => exact (hbank.setTagout _).inv_finish
    | texp => exact (hbank.setTexp _).inv_finish
    | obuf =>
      have hfit := outputRegion_fits_of_pass hpass (by simp [checkedRegions])
      exact (hbank.writeOutput (by simpa using hfit) (by simp [squeezeLen])).inv_finish
  | enc sch bank ls =>
    have hfit := outputRegion_fits_of_pass hpass (by simp [checkedRegions])
    exact ((h.setDuplexBanks bank ls _).writeOutput (by simpa using hfit) (by simp)).inv_finish
  | dec sch bank ls =>
    have hfit := outputRegion_fits_of_pass hpass (by simp [checkedRegions])
    exact (((h.setDuplexBanks bank ls _).writeOutput (by simpa using hfit) (by simp)).setOutLock true).inv_finish

/-- A command on an executing state, whatever its pre-checks answer (R245, R246). -/
theorem inv_commandAt (h : Executing c s) (i : Instr) : Inv c (commandAt c i s) := by
  rcases commandAt_cases c i s with ⟨hpass, e⟩ | ⟨-, e⟩ <;> rw [e]
  · exact h.inv_commandBody i hpass
  · exact h.inv_complete _

end Executing

/-! ## The engine, the resets and the host port -/

namespace Inv

variable {c : Params} {s : State}

/-- The invariant speaks of no event still to arrive. -/
theorem setPort (h : Inv c s) (events : List PortEvent) : Inv c { s with port := events } := { h with }

/-- The invariant speaks of no answer of the port. -/
theorem setResponse (h : Inv c s) (r : Option PortResponse) : Inv c { s with response := r } := { h with }

/-- Both resets end in a state that meets the invariant, from any state (R271). -/
theorem resetBlock (c : Params) (s : State) : Inv c s.resetBlock where
  ibuf_wf := Memory.wf_nil
  obuf_wf := Memory.wf_nil
  ibuf_within := (Memory.fits_nil c).2
  obuf_within := (Memory.fits_nil c).2
  err_iff := by simp [State.reset]
  errcmd_zero := fun _ => rfl
  busy_clean := fun _ => ⟨rfl, rfl, rfl⟩
  auth_released := fun _ => ⟨rfl, rfl⟩
  clearing_erased := fun _ => ⟨⟨rfl, rfl, rfl, rfl, rfl, rfl, rfl, rfl, rfl⟩, rfl⟩

theorem endClearing (h : Inv c s) : Inv c s.endClearing :=
  { h with
    busy_clean := fun hbusy => absurd rfl hbusy
    clearing_erased := fun hclear => by simp at hclear }

/-- The engine's turn keeps the invariant, in every phase (R245, R256, R272). -/
theorem engineTurn {t : State} (h : Inv c s) (hturn : engineTurn (execAt c) s = .next t) : Inv c t := by
  rcases engineTurn_cases c s with ⟨-, e⟩ | ⟨-, e⟩ | ⟨hrun, -, -, e⟩ | ⟨hrun, i, -, e⟩ <;>
    rw [e] at hturn <;> obtain rfl := Host.Outcome.next.inj hturn
  · exact h
  · exact h.endClearing
  · exact (h.executing (by simp [hrun])).inv_complete .illegalCommand
  · exact (h.executing (by simp [hrun])).inv_commandAt i

/-- Acceptance clears the status of the last command, so the running block is clean (R248). -/
theorem accept (h : Inv c s) (w : Reg) : Inv c (s.accept w) :=
  { h with
    err_iff := by simp [State.accept]
    errcmd_zero := fun _ => rfl
    busy_clean := fun _ => ⟨rfl, rfl, rfl⟩
    auth_released := fun hauth => by simp [State.accept] at hauth
    clearing_erased := fun hclear => by simp [State.accept] at hclear }

/-- The W1C write clears ERR, ERRCODE and ERRCMD together, and raises nothing (R30, R250). -/
theorem writeStatus (h : Inv c s) (v : Reg) : Inv c (s.writeStatus v) :=
  { h with
    err_iff := by
      unfold State.writeStatus
      cases v.getLsbD 2 <;> simp [h.err_iff]
    errcmd_zero := by
      unfold State.writeStatus
      cases v.getLsbD 2
      · simpa using h.errcmd_zero
      · simp
    busy_clean := fun hbusy => by
      obtain ⟨hdone, herr, hauth⟩ := h.busy_clean hbusy
      simp [State.writeStatus, hdone, herr, hauth] }

theorem writeCtrl (h : Inv c s) (v : Reg) : Inv c (s.writeCtrl v) := by
  unfold State.writeCtrl
  split
  · exact resetBlock c s
  · exact { h with }

/-- KEY, NONCE, TAGIN and IBUF may hold anything outside a clearing period, IBUF within its size. -/
theorem setOperands (h : Inv c s) (hphase : s.phase ≠ .clearReset) (key nonce tagin : ByteReg) {ibuf : Memory}
    (hibuf : ibuf.Fits c) : Inv c { s with key := key, nonce := nonce, tagin := tagin, ibuf := ibuf } :=
  { h with
    ibuf_wf := hibuf.1
    ibuf_within := hibuf.2
    clearing_erased := fun hclear => absurd hclear hphase }

/-- A host write that takes effect: `hopen` is what R68 asks of it, `hin` that an IBUF word lies in the buffer. -/
theorem writeTarget (h : Inv c s) (v : Reg) (target : PortTarget)
    (hopen : s.busy = false ∨ droppedWhileBusy target = false)
    (hin : ∀ off, target = .ibuf off → off + 4 ≤ c.bufBytes) : Inv c (writeTarget s v target) := by
  have hkept : s.ibuf.Fits c := ⟨h.ibuf_wf, h.ibuf_within⟩
  have hoperand : droppedWhileBusy target = true → s.phase ≠ .clearReset := by
    intro hdrop hclear
    simp [hdrop, hclear] at hopen
  cases target with
  | ctrl => exact h.writeCtrl v
  | status => exact h.writeStatus v
  | cmd => exact h.accept v
  | key k => exact h.setOperands (hoperand rfl) _ s.nonce s.tagin hkept
  | nonce k => exact h.setOperands (hoperand rfl) s.key _ s.tagin hkept
  | tagin k => exact h.setOperands (hoperand rfl) s.key s.nonce _ hkept
  | ibuf off => exact h.setOperands (hoperand rfl) s.key s.nonce s.tagin (hkept.writeReg off v (hin off rfl))
  | lens | aoff | alen | moff | mlen | doff => exact { h with }
  | id | version | domcfg | rndcfg | bufcfg | errcmd | paramcfg | tagout | obuf | unmapped => exact h

theorem hostWrite (h : Inv c s) (hlegal : c.Legal) (off : Nat) (haligned : off % 4 = 0) (v : Reg) :
    Inv c (hostWrite c s off v) := by
  rcases hostWrite_cases c s off v with ⟨-, -, e⟩ | ⟨hopen, e⟩ <;> rw [e]
  · exact { h with }
  · exact h.writeTarget v _ hopen fun k htarget => portTarget_ibuf_word_fits hlegal haligned htarget

theorem portRead (h : Inv c s) (width : AccessWidth) (off : BitVec 14) : Inv c (portRead c s width off) := by
  unfold Machine.portRead
  split <;> exact h.setResponse _

theorem portWrite (h : Inv c s) (hlegal : c.Legal) (width : AccessWidth) (off : BitVec 14) (v : Reg) :
    Inv c (portWrite c s width off v) := by
  unfold Machine.portWrite
  split
  · rename_i hsupported
    have haligned : off.toNat % 4 = 0 := by
      simp only [accessSupported, Bool.and_eq_true, beq_iff_eq] at hsupported
      exact hsupported.2
    exact (h.hostWrite hlegal _ haligned v).setResponse _
  · exact h.setResponse _

/-- A step keeps the invariant, at any legal parameters: the event it takes is the engine's turn, a reset, or an access
of the host. -/
theorem stepAt {t : State} (h : Inv c s) (hlegal : c.Legal) (hstep : stepAt c s = .next t) : Inv c t := by
  rcases stepAt_cases c s t hstep with ⟨-, hturn⟩ | ⟨rest, -, hturn⟩ | ⟨rest, -, rfl⟩ | ⟨width, off, rest, -, rfl⟩ |
    ⟨width, off, v, rest, -, rfl⟩
  · exact h.engineTurn hturn
  · exact (h.setPort rest).engineTurn hturn
  · exact resetBlock c _
  · exact (h.setPort rest).portRead width off
  · exact (h.setPort rest).portWrite hlegal width off v

end Inv

/-- Settles O56, by the events a step can take; this machine's step is the general one at its legal parameters. -/
theorem stepKeepsTheInvariant : Obligations.StepKeepsTheInvariant :=
  ⟨fun s _ h hstep => h.stepAt params_legal (step_eq s ▸ hstep), fun _ _ _ hlegal h hstep => h.stepAt hlegal hstep⟩

end Sys2Proof.Machine
end

section
/-!
The host port by address (spec/20_memory.md R62, R63, R68): which target an offset names and back, and what a supported
access is once its target is known. Later proofs name a target and cite these; they do not open the address map.
-/

namespace Sys2Proof.Machine

/-! ## The address map -/

/-- A target is a register of the map, at its offset, or one of a buffer's words, or nothing (R62, R63). -/
theorem portTarget_cases (c : Params) (off : Nat) :
    (off, portTarget c off) ∈ registerMap ∨ (∃ k, portTarget c off = .ibuf k) ∨ (∃ k, portTarget c off = .obuf k) ∨
      portTarget c off = .unmapped := by
  unfold portTarget
  split
  · rename_i target hlookup
    obtain ⟨before, after, hmap, -⟩ := List.lookup_eq_some_iff.1 hlookup
    exact .inl (by simp [hmap])
  · split_ifs <;> simp

/-- A target outside the buffers that is mapped stands in the register map at its offset. -/
theorem mem_registerMap_of_portTarget {c : Params} {off : Nat} {target : PortTarget} (h : portTarget c off = target)
    (hibuf : ∀ k, target ≠ .ibuf k) (hobuf : ∀ k, target ≠ .obuf k) (hmapped : target ≠ .unmapped) :
    (off, target) ∈ registerMap := by
  subst h
  rcases portTarget_cases c off with hmem | ⟨k, e⟩ | ⟨k, e⟩ | e
  · exact hmem
  · exact absurd e (hibuf k)
  · exact absurd e (hobuf k)
  · exact absurd e hmapped

/-- KEY0 to KEY3 are the words from 0x040 up to 0x050 (R62). -/
theorem portTarget_eq_key {c : Params} {off k : Nat} (h : portTarget c off = .key k) : 0x040 ≤ off ∧ off < 0x050 := by
  have hmem := mem_registerMap_of_portTarget h nofun nofun nofun
  simp [registerMap] at hmem
  omega

/-- CTRL is at 0x008 only (R62). -/
theorem portTarget_eq_ctrl {c : Params} {off : Nat} (h : portTarget c off = .ctrl) : off = 0x008 := by
  have hmem := mem_registerMap_of_portTarget h nofun nofun nofun
  simpa [registerMap] using hmem

/-- The four words of each 16-byte register (R62, R64). -/
theorem portTarget_byteRegs (c : Params) {k : Nat} (h : k < 4) :
    portTarget c (0x040 + 4 * k) = .key k ∧ portTarget c (0x050 + 4 * k) = .nonce k ∧
    portTarget c (0x060 + 4 * k) = .tagin k ∧ portTarget c (0x070 + 4 * k) = .tagout k := by
  interval_cases k <;> exact ⟨rfl, rfl, rfl, rfl⟩

/-- The offsets between the registers, the two buffers and the end of the window name nothing (R63). -/
theorem portTarget_unmapped (c : Params) {off : Nat}
    (h : (0x080 ≤ off ∧ off < 0x1000) ∨ (0x1000 + c.bufBytes ≤ off ∧ off < 0x2000) ∨ 0x2000 + c.bufBytes ≤ off) :
    portTarget c off = .unmapped := by
  simp only [portTarget, registerMap_lookup_high off (by omega)]
  rw [if_neg (by omega), if_neg (by omega)]

/-! ## Accesses to a known target -/

section
variable {c : Params} {s : State} {off : Nat} {v : Reg} (target : PortTarget)

/-- A target that R68 leaves open is written in every phase. -/
theorem hostWrite_of_open (htarget : portTarget c off = target) (hopen : droppedWhileBusy target = false) :
    hostWrite c s off v = writeTarget s v target := by
  simp [hostWrite, htarget, hopen]

/-- While idle every target is written (R68). -/
theorem hostWrite_of_idle (htarget : portTarget c off = target) (hidle : s.phase = .idle) :
    hostWrite c s off v = writeTarget s v target := by
  simp [hostWrite, htarget, hidle]

/-- A target that R68 leaves open is read in every phase. -/
theorem hostRead_of_readable (htarget : portTarget c off = target) (hreadable : readableWhileBusy target = true) :
    hostRead c s off = readTarget c s target := by
  simp [hostRead, htarget, hreadable]

/-- While idle every target is read (R68). -/
theorem hostRead_of_idle (htarget : portTarget c off = target) (hidle : s.phase = .idle) :
    hostRead c s off = readTarget c s target := by
  simp [hostRead, htarget, hidle]

/-- What an idle read returns of the target just written, when the write leaves the block idle. -/
theorem hostRead_hostWrite_of_idle (htarget : portTarget c off = target) (hidle : s.phase = .idle)
    (hphase : (writeTarget s v target).phase = s.phase) :
    hostRead c (hostWrite c s off v) off = readTarget c (writeTarget s v target) target := by
  rw [hostWrite_of_idle target htarget hidle, hostRead_of_idle target htarget (hphase.trans hidle)]

/-- A target that ignores writes and is not dropped does so in every phase (R63, R68). -/
theorem hostWrite_of_ignored (htarget : portTarget c off = target) (hopen : droppedWhileBusy target = false)
    (hignored : writeTarget s v target = s) : hostWrite c s off v = s := by
  rw [hostWrite_of_open target htarget hopen, hignored]

end

end Sys2Proof.Machine
end

section
/-!
STATUS, CTRL and the interrupt output (O51, O52): spec/10_state.md R29, R30, R40, spec/60_exceptions.md R250. And the
state after reset (O55).
-/

namespace Sys2Proof.Machine

theorem getLsbD_bitAt (b : Bool) {pos : Nat} (h : pos < 32) (i : Nat) :
    (bitAt b pos).getLsbD i = (b && decide (i = pos)) := by
  cases b
  · simp [bitAt]
  · simp only [bitAt, if_true, BitVec.natCast_eq_ofNat, BitVec.getLsbD_ofNat, Nat.one_shiftLeft,
      Nat.testBit_two_pow, Bool.true_and]
    grind

/-- Bit `i` of STATUS: the flag whose place it is, or a bit of ERRCODE (R30). -/
theorem getLsbD_statusWord (s : State) (i : Nat) :
    s.statusWord.getLsbD i =
      (s.busy && decide (i = 0) || s.done && decide (i = 1) || s.err && decide (i = 2) || s.authOk && decide (i = 3) ||
        s.outLock && decide (i = 4) || s.ovr && decide (i = 5) || decide (8 ≤ i) && s.errcode.code.getLsbD (i - 8)) := by
  simp only [State.statusWord, BitVec.getLsbD_or, BitVec.getLsbD_shiftLeft, BitVec.getLsbD_setWidth, getLsbD_bitAt,
    Nat.reduceLT]
  grind

/-- From bit 8 on STATUS holds ERRCODE and nothing else (R30). -/
theorem getLsbD_statusWord_high (s : State) (i : Nat) : s.statusWord.getLsbD (8 + i) = s.errcode.code.getLsbD i := by
  have noFlag : ∀ pos < 8, decide (8 + i = pos) = false := fun pos h => decide_eq_false (by omega)
  simp [getLsbD_statusWord, noFlag]

/-- The six flags of STATUS in their places (R30). -/
theorem statusWord_flags (s : State) :
    s.statusWord.getLsbD 0 = s.busy ∧ s.statusWord.getLsbD 1 = s.done ∧ s.statusWord.getLsbD 2 = s.err ∧
    s.statusWord.getLsbD 3 = s.authOk ∧ s.statusWord.getLsbD 4 = s.outLock ∧ s.statusWord.getLsbD 5 = s.ovr := by
  simp only [getLsbD_statusWord]
  simp

/-- Bit `i` of CTRL: IRQ_EN in bit 0 and nothing else (R29). -/
theorem getLsbD_ctrlWord (s : State) (i : Nat) : s.ctrlWord.getLsbD i = (s.irqEn && decide (i = 0)) :=
  getLsbD_bitAt s.irqEn (by decide) i

theorem State.writeCtrl_of_no_srst (s : State) {v : Reg} (h : v.getLsbD 1 = false) :
    s.writeCtrl v = { s with irqEn := v.getLsbD 0 } := by
  rw [State.writeCtrl, h]
  rfl

theorem State.writeCtrl_of_srst (s : State) {v : Reg} (h : v.getLsbD 1 = true) : s.writeCtrl v = s.resetBlock :=
  if_pos h

/-- Settles O51, by the bits of the two words. -/
theorem statusFieldsAndInterrupt : Obligations.StatusFieldsAndInterrupt := by
  intro s w ctrl hw hctrl
  obtain rfl : w = s.statusWord := hw.trans (hostRead_of_readable .status rfl rfl)
  obtain rfl : ctrl = s.ctrlWord := hctrl.trans (hostRead_of_readable .ctrl rfl rfl)
  obtain ⟨hbusy, hdone, herr, hauthOk, houtLock, hovr⟩ := statusWord_flags s
  have hirqEn : s.ctrlWord.getLsbD 0 = s.irqEn := (getLsbD_ctrlWord s 0).trans (by simp)
  refine ⟨?busy, hdone, herr, hauthOk, houtLock, hovr, ?reserved, ?errcode, ?high, hirqEn, ?ctrlHigh, ?irq, ?write⟩
  case busy => rw [hbusy, State.busy_eq_true]
  case reserved =>
    ext i hi
    simp only [BitVec.getElem_extractLsb', getLsbD_statusWord]
    interval_cases i <;> simp
  case errcode =>
    ext i hi
    rw [BitVec.getElem_extractLsb', getLsbD_statusWord_high, BitVec.getLsbD_eq_getElem hi]
  case high =>
    ext i hi
    rw [BitVec.getElem_extractLsb', show 12 + i = 8 + (4 + i) by omega, getLsbD_statusWord_high]
    simp
  case ctrlHigh =>
    ext i hi
    simp [getLsbD_ctrlWord]
  case irq => rw [hirqEn, hdone, herr, State.irq]
  case write =>
    intro v hv
    rw [hostWrite_of_open .ctrl rfl rfl]
    exact s.writeCtrl_of_no_srst hv

/-- Settles O52: STATUS is open in every phase, and its write is the W1C update. -/
theorem statusWriteClearsWhereOne : Obligations.StatusWriteClearsWhereOne := by
  intro s v
  refine ⟨s.writeStatus v, hostWrite_of_open .status rfl rfl, by simp, by simp, by simp, ?clear, ?keep, rfl,
    ?all⟩
  case clear =>
    intro hv
    rw [State.writeStatus_errcode, State.writeStatus_errcmd, hv]
    exact ⟨rfl, rfl⟩
  case keep =>
    intro hv
    rw [State.writeStatus_errcode, State.writeStatus_errcmd, hv]
    exact ⟨rfl, rfl⟩
  case all =>
    rintro rfl
    simp

/-- Settles O55: the reset state is what a reset leaves, and that meets the invariant. -/
theorem resetStateMeetsTheInvariant : Obligations.ResetStateMeetsTheInvariant :=
  fun c => Inv.resetBlock c State.reset

end Sys2Proof.Machine
end

section
/-!
What a command writes of the host's registers, of KEY and of AUTH_OK (O10, and the engine's part of O58 and O59):
spec/10_state.md R22 to R28, R30, spec/42_aead_verify.md R202, R206, spec/60_exceptions.md R247.
-/

namespace Sys2Proof.Machine

/-! ## The host's registers -/

/-- The registers only the host and a reset write, and the model's own two fields. -/
def State.hostOwned (s : State) :=
  (s.nonce, s.tagin, s.lensKey, s.lensNonce, s.lensTag, s.aoff, s.alen, s.moff, s.mlen, s.doff, s.irqEn, s.ovr, s.cmd,
    s.port, s.response)

theorem State.hostOwned_setBank (s : State) (sel : BankSel) (v : Bank) :
    (s.setBank sel v).hostOwned = s.hostOwned := by cases sel <;> rfl

theorem State.hostOwned_setDuplexBanks (s : State) (bank : BankSel) (ls : Bool) (r : DuplexResult) :
    (s.setDuplexBanks bank ls r).hostOwned = s.hostOwned := by
  cases ls
  · exact s.hostOwned_setBank bank r.bank
  · exact ((s.setBank bank r.bank).hostOwned_setBank bank.other r.other).trans (s.hostOwned_setBank bank r.bank)

theorem State.hostOwned_deliver (s : State) (dest : SqueezeDest) (out : List Byte) :
    (s.deliver dest out).hostOwned = s.hostOwned := by cases dest <;> rfl

theorem State.hostOwned_verifyStep (s : State) (sch : Scheme) :
    (s.verifyStep sch).1.hostOwned = s.hostOwned := by
  rcases verifyStep_cases s sch with ⟨-, e⟩ | ⟨-, e⟩ <;> rw [e] <;> rfl

/-- A command that passes its pre-checks ends by a completion, in a state that keeps what is the host's (R247). -/
theorem commandBody_eq_complete (c : Params) (i : Instr) (s : State) :
    ∃ (u : State) (e : ErrorCode), commandBody c i s = u.complete e ∧ u.hostOwned = s.hostOwned := by
  cases i with
  | nop | clear | aeadEnc => exact ⟨_, .none, rfl, rfl⟩
  | aeadDec sch => exact ⟨_, _, rfl, State.hostOwned_verifyStep _ sch⟩
  | verify sch => exact ⟨_, _, rfl, State.hostOwned_verifyStep _ sch⟩
  | init | absorb | permute | copy => exact ⟨_, .none, rfl, s.hostOwned_setBank _ _⟩
  | enc | dec => exact ⟨_, .none, rfl, s.hostOwned_setDuplexBanks _ _ _⟩
  | squeeze => exact ⟨_, .none, rfl, (State.hostOwned_deliver _ _ _).trans (s.hostOwned_setBank _ _)⟩

/-- Every command ends by a completion, in a state that keeps what is the host's (R246, R247). -/
theorem commandAt_eq_complete (c : Params) (i : Instr) (s : State) :
    ∃ (u : State) (e : ErrorCode), commandAt c i s = u.complete e ∧ u.hostOwned = s.hostOwned := by
  rcases commandAt_cases c i s with ⟨-, e⟩ | ⟨-, e⟩ <;> rw [e]
  · exact commandBody_eq_complete c i s
  · exact ⟨s, _, rfl, rfl⟩

/-- Settles O10: a completion writes nothing of the host's, and sets `phase` and DONE. -/
theorem commandsKeepTheHostsRegisters : Obligations.CommandsKeepTheHostsRegisters := by
  intro i s
  obtain ⟨u, e, hcompleted, hkept⟩ := commandAt_eq_complete Config.params i s
  simp only [State.hostOwned, Prod.mk.injEq] at hkept
  refine ⟨u.complete e, by rw [exec_eq, hcompleted], ?_⟩
  simpa using hkept

/-! ## KEY -/

theorem State.verifyAndComplete_key (s : State) (sch : Scheme) : (s.verifyAndComplete sch).key = s.key := by
  rcases verifyAndComplete_cases s sch with ⟨-, e⟩ | ⟨-, e⟩ <;> rw [e]

/-- No command but CLEAR writes KEY (R22). -/
theorem commandAt_key (c : Params) {i : Instr} (hi : i ≠ .clear) (s : State) : (commandAt c i s).key = s.key := by
  rcases commandAt_cases c i s with ⟨-, e⟩ | ⟨-, e⟩ <;> rw [e]
  · cases i with
    | clear => contradiction
    | nop | aeadEnc => rfl
    | init | absorb | permute | copy | squeeze | enc | dec => simp [commandBody]
    | aeadDec sch | verify sch => exact State.verifyAndComplete_key _ sch
  · rfl

/-- CLEAR has no pre-check to fail, and zeroes KEY (R208). -/
theorem commandAt_clear_key (c : Params) (s : State) : (commandAt c .clear s).key = ByteReg.zero := rfl

/-- The engine changes KEY only by a CLEAR it runs (R22). -/
theorem engineStep_key {s t : State} (hturn : engineStep s = .next t) (hkey : t.key ≠ s.key) :
    s.phase = .run ∧ decode s.cmd = .ok .clear ∧ t.key = ByteReg.zero := by
  rcases engineStep_cases s with ⟨-, e⟩ | ⟨-, e⟩ | ⟨-, -, -, e⟩ | ⟨hrun, i, hdecode, e⟩ <;>
    rw [e] at hturn <;> obtain rfl := Host.Outcome.next.inj hturn
  · contradiction
  · contradiction
  · contradiction
  · by_cases hi : i = .clear
    · subst hi
      exact ⟨hrun, hdecode, commandAt_clear_key _ s⟩
    · exact absurd (commandAt_key _ hi s) hkey

/-! ## AUTH_OK -/

theorem ctDiff_succ (x y : ByteReg) (n : Nat) : ctDiff x y (n + 1) = ctDiff x y n ||| (x.byte n ^^^ y.byte n) := by
  simp [ctDiff, List.range_succ]

/-- The accumulator stays zero exactly while every pair of bytes agrees (R205). -/
theorem ctDiff_eq_zero_iff (x y : ByteReg) (n : Nat) : ctDiff x y n = 0 ↔ ∀ i < n, x.byte i = y.byte i := by
  induction n with
  | zero => simp [ctDiff]
  | succ n ih =>
    rw [ctDiff_succ, Nat.forall_lt_succ_right, ← ih]
    exact BitVec.or_eq_zero_iff.trans (and_congr_right' BitVec.xor_eq_zero_iff)

/-- `CTEq` compares the first `n` bytes (R205). -/
theorem ctEq_iff (x y : ByteReg) (n : Nat) : ctEq x y n = true ↔ ∀ i < n, x.byte i = y.byte i := by
  rw [ctEq, beq_iff_eq, ctDiff_eq_zero_iff]

theorem tagLen_le (sch : Scheme) : tagLen sch ≤ 16 := by cases sch <;> decide

/-- The verify step raises AUTH_OK only when TEXP and TAGIN agree on the whole tag (R206). -/
theorem verifyAndComplete_authOk {s : State} {sch : Scheme} (hafter : (s.verifyAndComplete sch).authOk = true)
    (hbefore : s.authOk = false) : ∀ i < tagLen sch, s.texp.byte i = s.tagin.byte i := by
  rcases verifyAndComplete_cases s sch with ⟨hmatch, -⟩ | ⟨-, e⟩
  · exact (ctEq_iff _ _ _).1 hmatch
  · rw [e] at hafter
    simp [hbefore] at hafter

/-- A command raises AUTH_OK only as VERIFY of a TEXP, or AEAD_DEC of a computed tag, that is TAGIN (R202, R206). -/
theorem commandAt_authOk {c : Params} {i : Instr} {s : State} (hbefore : s.authOk = false)
    (hafter : (commandAt c i s).authOk = true) :
    ∃ sch, (i = .verify sch ∧ ∀ j < tagLen sch, s.texp.byte j = s.tagin.byte j) ∨
      (i = .aeadDec sch ∧ ∀ j < tagLen sch, s.tagin.byte j =
        (aeadDecrypt c sch s.keyBytes (s.nonceBytes sch) s.adBytes s.messageBytes).2.getD j 0) := by
  rcases commandAt_cases c i s with ⟨-, e⟩ | ⟨-, e⟩ <;> rw [e] at hafter
  · cases i with
    | verify sch => exact ⟨sch, .inl ⟨rfl, verifyAndComplete_authOk hafter hbefore⟩⟩
    | aeadDec sch =>
      refine ⟨sch, .inr ⟨rfl, fun j hj => ?_⟩⟩
      have hmatch := verifyAndComplete_authOk hafter hbefore j hj
      rw [← ByteReg.byte_ofBytes _ j (lt_of_lt_of_le hj (tagLen_le sch))]
      exact hmatch.symm
    | nop | clear | aeadEnc | init | absorb | permute | copy | squeeze | enc | dec =>
      simp [commandBody, hbefore] at hafter
  · simp [hbefore] at hafter

/-- The engine raises AUTH_OK only at such a command, which then has completed. -/
theorem engineStep_authOk {s t : State} (hturn : engineStep s = .next t) (hbefore : s.authOk = false)
    (hafter : t.authOk = true) :
    s.phase = .run ∧ t.phase = .idle ∧ ∃ sch,
      (decode s.cmd = .ok (.verify sch) ∧ ∀ i < tagLen sch, s.texp.byte i = s.tagin.byte i) ∨
      (decode s.cmd = .ok (.aeadDec sch) ∧ ∀ i < tagLen sch, s.tagin.byte i =
        (aeadDecrypt Config.params sch s.keyBytes (s.nonceBytes sch) s.adBytes s.messageBytes).2.getD i 0) := by
  rcases engineStep_cases s with ⟨-, e⟩ | ⟨-, e⟩ | ⟨-, -, -, e⟩ | ⟨hrun, i, hdecode, e⟩ <;>
    rw [e] at hturn <;> obtain rfl := Host.Outcome.next.inj hturn
  · simp [hbefore] at hafter
  · simp [hbefore] at hafter
  · simp [hbefore] at hafter
  · obtain ⟨u, code, hcompleted, -⟩ := commandAt_eq_complete Config.params i s
    obtain ⟨sch, ⟨rfl, hmatch⟩ | ⟨rfl, hmatch⟩⟩ := commandAt_authOk hbefore hafter
    · exact ⟨hrun, by rw [hcompleted, State.complete_phase], sch, .inl ⟨hdecode, hmatch⟩⟩
    · exact ⟨hrun, by rw [hcompleted, State.complete_phase], sch, .inr ⟨hdecode, hmatch⟩⟩

end Sys2Proof.Machine
end

section
/-!
What a step does to KEY and to AUTH_OK (O58, O59): the engine's turn as above, the resets and the accesses of the host
(spec/10_state.md R22, R30, spec/20_memory.md R61, R68).
-/

namespace Sys2Proof.Machine

/-- A supported write changes KEY only at KEY0..KEY3 while idle, or by the soft reset (R22, R29, R68). -/
theorem hostWrite_key {c : Params} {s : State} {off : Nat} {v : Reg} (hkey : (hostWrite c s off v).key ≠ s.key) :
    (s.phase = .idle ∧ 0x040 ≤ off ∧ off < 0x050) ∨
    ((hostWrite c s off v).key = ByteReg.zero ∧ off = 0x008 ∧ v.getLsbD 1 = true) := by
  rcases hostWrite_cases c s off v with ⟨-, -, e⟩ | ⟨hopen, e⟩ <;> rw [e] at hkey ⊢
  · contradiction
  · cases htarget : portTarget c off with
    | key k =>
      rw [htarget] at hopen
      exact .inl ⟨by simpa [droppedWhileBusy] using hopen, portTarget_eq_key htarget⟩
    | ctrl =>
      rw [htarget] at hkey
      cases hsrst : v.getLsbD 1 with
      | false => exact absurd (congrArg State.key (s.writeCtrl_of_no_srst hsrst)) hkey
      | true => exact .inr ⟨congrArg State.key (s.writeCtrl_of_srst hsrst), portTarget_eq_ctrl htarget, rfl⟩
    | _ =>
      rw [htarget] at hkey
      contradiction

/-- No supported write raises AUTH_OK (R30). -/
theorem hostWrite_authOk {c : Params} {s : State} {off : Nat} {v : Reg} (hbefore : s.authOk = false) :
    (hostWrite c s off v).authOk = false := by
  rcases hostWrite_cases c s off v with ⟨-, -, e⟩ | ⟨-, e⟩ <;> rw [e]
  · exact hbefore
  · cases portTarget c off with
    | cmd => rfl
    | ctrl =>
      cases hsrst : v.getLsbD 1 with
      | true => exact congrArg State.authOk (s.writeCtrl_of_srst hsrst)
      | false => exact (congrArg State.authOk (s.writeCtrl_of_no_srst hsrst)).trans hbefore
    | _ => exact hbefore

/-- What the port makes of a write: the write of an aligned word, or nothing but the answer (R61). -/
theorem portWrite_cases (c : Params) (s : State) (width : AccessWidth) (off : BitVec 14) (v : Reg) :
    (width = .word ∧ portWrite c s width off v = { hostWrite c s off.toNat v with response := some .writeDone }) ∨
    portWrite c s width off v = { s with response := some .busError } := by
  unfold portWrite
  split
  · rename_i hsupported
    simp only [accessSupported, Bool.and_eq_true, beq_iff_eq] at hsupported
    exact .inl ⟨hsupported.1, rfl⟩
  · exact .inr rfl

/-- No read changes KEY (R70). -/
theorem portRead_key (c : Params) (s : State) (width : AccessWidth) (off : BitVec 14) :
    (portRead c s width off).key = s.key := by
  unfold portRead
  split <;> rfl

/-- No read changes AUTH_OK (R70). -/
theorem portRead_authOk (c : Params) (s : State) (width : AccessWidth) (off : BitVec 14) :
    (portRead c s width off).authOk = s.authOk := by
  unfold portRead
  split <;> rfl

/-- A write at the port changes KEY as the supported write it is (R22, R61). -/
theorem portWrite_key {c : Params} {s : State} {width : AccessWidth} {off : BitVec 14} {v : Reg}
    (hkey : (portWrite c s width off v).key ≠ s.key) :
    width = .word ∧ ((s.phase = .idle ∧ 0x040 ≤ off.toNat ∧ off.toNat < 0x050) ∨
      ((portWrite c s width off v).key = ByteReg.zero ∧ off = 0x008 ∧ v.getLsbD 1 = true)) := by
  rcases portWrite_cases c s width off v with ⟨hwidth, e⟩ | e <;> rw [e] at hkey ⊢
  · rcases hostWrite_key hkey with hwritten | ⟨hzero, hoff, hsrst⟩
    · exact ⟨hwidth, .inl hwritten⟩
    · exact ⟨hwidth, .inr ⟨hzero, BitVec.eq_of_toNat_eq hoff, hsrst⟩⟩
  · contradiction

/-- No write at the port raises AUTH_OK (R30). -/
theorem portWrite_authOk {c : Params} {s : State} (width : AccessWidth) (off : BitVec 14) (v : Reg)
    (hbefore : s.authOk = false) : (portWrite c s width off v).authOk = false := by
  rcases portWrite_cases c s width off v with ⟨-, e⟩ | e <;> rw [e]
  · exact hostWrite_authOk hbefore
  · exact hbefore

/-- Settles O58, by the events a step can take. -/
theorem keyChangesOnlyByWriteClearOrReset : Obligations.KeyChangesOnlyByWriteClearOrReset := by
  intro s t hstep hkey
  rcases step_cases s t hstep with ⟨-, hturn⟩ | ⟨rest, -, hturn⟩ | ⟨rest, hport, rfl⟩ | ⟨width, off, rest, -, rfl⟩ |
    ⟨width, off, v, rest, hport, rfl⟩
  · obtain ⟨hrun, hdecode, hzero⟩ := engineStep_key hturn hkey
    exact .inr ⟨hzero, .inr (.inr ⟨hrun, hdecode⟩)⟩
  · obtain ⟨hrun, hdecode, hzero⟩ := engineStep_key hturn hkey
    exact .inr ⟨hzero, .inr (.inr ⟨hrun, hdecode⟩)⟩
  · exact .inr ⟨rfl, .inl ⟨rest, hport⟩⟩
  · exact absurd (portRead_key Config.params { s with port := rest } width off) hkey
  · obtain ⟨rfl, ⟨hidle, hoff⟩ | ⟨hzero, rfl, hsrst⟩⟩ := portWrite_key hkey
    · exact .inl ⟨hidle, off, v, rest, hport, hoff⟩
    · exact .inr ⟨hzero, .inr (.inl ⟨v, rest, hport, hsrst⟩)⟩

/-- Settles O59: of the events a step can take, only the engine's turn raises AUTH_OK. -/
theorem authOkRisesOnlyOnAMatchingTag : Obligations.AuthOkRisesOnlyOnAMatchingTag := by
  intro s t hstep hbefore hafter
  rcases step_cases s t hstep with ⟨-, hturn⟩ | ⟨rest, -, hturn⟩ | ⟨rest, -, rfl⟩ | ⟨width, off, rest, -, rfl⟩ |
    ⟨width, off, v, rest, -, rfl⟩
  · exact engineStep_authOk hturn hbefore hafter
  · exact engineStep_authOk (s := { s with port := rest }) hturn hbefore hafter
  · exact absurd hafter Bool.false_ne_true
  · exact absurd ((portRead_authOk Config.params _ width off).symm.trans hafter) (by simp [hbefore])
  · have hkept := portWrite_authOk (c := Config.params) (s := { s with port := rest }) width off v hbefore
    exact absurd (hkept.symm.trans hafter) Bool.false_ne_true

end Sys2Proof.Machine
end

section
/-!
The constant registers, the unmapped offsets and the operand registers as the host sees them (O53, O48):
spec/10_state.md R22 to R28, R31 to R38, spec/20_memory.md R63, R64.
-/

namespace Sys2Proof.Machine

/-! ## Constant registers -/

/-- The four bytes of DOMCFG (R34). -/
theorem domcfgWord_bytes (c : Params) :
    (domcfgWord c).extractLsb' 0 8 = c.adDomainE ∧ (domcfgWord c).extractLsb' 8 8 = c.tagDomainE ∧
    (domcfgWord c).extractLsb' 16 8 = c.adDomainI ∧ (domcfgWord c).extractLsb' 24 8 = c.tagDomainI := by
  refine ⟨?_, ?_, ?_, ?_⟩ <;>
  · ext i hi
    simp only [domcfgWord, BitVec.getElem_extractLsb', BitVec.getLsbD_or, BitVec.getLsbD_shiftLeft,
      BitVec.getLsbD_setWidth]
    interval_cases i <;> simp

/-- The four round counts of RNDCFG, each below 16, in their places (R35). -/
theorem rndcfgWord_toNat {c : Params} (h : c.elephantRedRounds ≤ 12) :
    (rndcfgWord c).toNat = 12 + 16 * c.elephantRedRounds + 256 * 12 + 4096 * 6 := by
  have fields : ∀ n ≤ 12, (roundField 12 ||| roundField n <<< 4 ||| roundField 12 <<< 8 ||| roundField 6 <<< 12).toNat =
      12 + 16 * n + 256 * 12 + 4096 * 6 := by decide
  exact fields _ h

/-- BUFCFG holds every legal buffer size (R36). -/
theorem bufcfgWord_toNat {c : Params} (h : c.bufBytes ≤ 4096) : (bufcfgWord c).toNat = c.bufBytes := by
  simp only [bufcfgWord, BitVec.toNat_setWidth, BitVec.toNat_ofNat]
  omega

/-- Settles O53: reads and writes of targets R68 leaves open, and targets that ignore writes. -/
theorem constantRegistersAndUnmappedOffsets : Obligations.ConstantRegistersAndUnmappedOffsets := by
  rintro c s v ⟨-, hrounds, -, -, hbuf, -⟩
  obtain ⟨hadE, htagE, hadI, htagI⟩ := domcfgWord_bytes c
  have hdomcfg : hostRead c s 0x02C = domcfgWord c := hostRead_of_readable .domcfg rfl rfl
  have hrndcfg : hostRead c s 0x030 = rndcfgWord c := hostRead_of_readable .rndcfg rfl rfl
  have hbufcfg : hostRead c s 0x034 = bufcfgWord c := hostRead_of_readable .bufcfg rfl rfl
  have hparamcfg : hostRead c s 0x03C = paramcfgWord c := hostRead_of_readable .paramcfg rfl rfl
  rw [hdomcfg, hrndcfg, hbufcfg, hparamcfg]
  refine ⟨hostRead_of_readable .id rfl rfl, hostRead_of_readable .version rfl rfl, hadE, htagE, hadI, htagI,
    rndcfgWord_toNat hrounds, bufcfgWord_toNat hbuf, ?paramcfg, hostRead_of_readable .rndcfg rfl rfl,
    hostRead_of_readable .bufcfg rfl rfl, hostRead_of_readable .paramcfg rfl rfl, ?registers, ?obuf, ?unmapped⟩
  case paramcfg =>
    unfold paramcfgWord
    cases c.rcStartMode <;> cases c.piRhoVariant <;> cases c.partialAlign <;> rfl
  case registers =>
    simp only [List.forall_mem_cons]
    exact ⟨hostWrite_of_ignored .id rfl rfl rfl, hostWrite_of_ignored .version rfl rfl rfl,
      hostWrite_of_ignored .domcfg rfl rfl rfl, hostWrite_of_ignored .rndcfg rfl rfl rfl,
      hostWrite_of_ignored .bufcfg rfl rfl rfl, hostWrite_of_ignored .errcmd rfl rfl rfl,
      hostWrite_of_ignored .paramcfg rfl rfl rfl, hostWrite_of_ignored (.tagout 0) rfl rfl rfl,
      hostWrite_of_ignored (.tagout 1) rfl rfl rfl, hostWrite_of_ignored (.tagout 2) rfl rfl rfl,
      hostWrite_of_ignored (.tagout 3) rfl rfl rfl, nofun⟩
  case obuf =>
    intro k hk
    exact hostWrite_of_ignored (.obuf (4 * k)) (portTarget_obuf c _ hk hbuf) rfl rfl
  case unmapped =>
    intro off hoff
    refine ⟨?_, hostWrite_of_ignored .unmapped (portTarget_unmapped c hoff) rfl rfl⟩
    rcases hostRead_cases c s off with ⟨-, -, e⟩ | ⟨-, e⟩ <;> rw [e]
    rw [portTarget_unmapped c hoff, readTarget]

/-! ## Operand registers -/

/-- Byte `j` of the word a 16-byte register reads (R64). -/
theorem ByteReg.regByte_readWord (r : ByteReg) (k : Nat) {j : Nat} (h : j < 4) :
    regByte (r.readWord k) j = r.byte (4 * k + j) :=
  regByte_packReg _ j h

/-- A word of a 16-byte register reads what was written to it (R64). -/
theorem ByteReg.readWord_writeWord (r : ByteReg) {k : Nat} (h : k < 4) (v : Reg) : (r.writeWord k v).readWord k = v := by
  have written : ∀ j < 4, (r.writeWord k v).byte (4 * k + j) = regByte v j := by
    intro j hj
    rw [ByteReg.byte_writeWord _ _ _ _ (by omega), if_pos (by omega), Nat.mul_add_mod, Nat.mod_eq_of_lt hj]
  calc (r.writeWord k v).readWord k
      = packReg (regByte v) := by simp only [ByteReg.readWord, packReg, written, Nat.reduceLT]
    _ = v := packReg_regByte v

/-- LENS reads the fifteen bits it keeps (R27). -/
theorem lensWord_writeLens (s : State) (v : Reg) : (s.writeLens v).lensWord = v &&& 0x001F1F1F := by
  ext i hi
  simp only [State.lensWord, State.writeLens, BitVec.getElem_or, BitVec.getElem_shiftLeft, BitVec.getElem_setWidth,
    BitVec.getLsbD_extractLsb', BitVec.getElem_and]
  interval_cases i <;> simp

/-- A region register reads the sixteen bits it keeps (R28). -/
theorem setWidth_setWidth_eq_and (v : Reg) : (v.setWidth 16).setWidth 32 = v &&& 0x0000FFFF := by
  apply BitVec.eq_of_toNat_eq
  calc ((v.setWidth 16).setWidth 32).toNat
      = v.toNat % 2 ^ 16 := by simp only [BitVec.toNat_setWidth]; omega
    _ = v.toNat &&& (2 ^ 16 - 1) := (Nat.and_two_pow_sub_one_eq_mod _ _).symm

/-- An idle write of a region register, read back: the width is the register's, whichever of the five it is (R28). -/
theorem hostRead_hostWrite_region {c : Params} {s : State} {off : Nat} {v : Reg} (target : PortTarget)
    (htarget : portTarget c off = target) (hidle : s.phase = .idle)
    (hphase : (writeTarget s v target).phase = s.phase)
    (hread : readTarget c (writeTarget s v target) target = (v.setWidth 16).setWidth 32) :
    hostRead c (hostWrite c s off v) off = v &&& 0x0000FFFF := by
  rw [hostRead_hostWrite_of_idle target htarget hidle hphase, hread, setWidth_setWidth_eq_and]

/-- Settles O48, one register after another. -/
theorem operandRegistersHoldWhatIsWritten : Obligations.OperandRegistersHoldWhatIsWritten := by
  intro s k v hidle hk
  obtain ⟨hkey, hnonce, htagin, htagout⟩ := portTarget_byteRegs Config.params hk
  refine ⟨⟨_, hostWrite_of_idle _ hkey hidle, s.key.byte_writeWord k v⟩,
    ⟨_, hostWrite_of_idle _ hnonce hidle, ?nonceBack, s.nonce.byte_writeWord k v⟩,
    ⟨_, hostWrite_of_idle _ htagin hidle, ?taginBack, s.tagin.byte_writeWord k v⟩,
    hostWrite_of_idle .lens rfl hidle, hostWrite_of_idle .aoff rfl hidle, hostWrite_of_idle .alen rfl hidle,
    hostWrite_of_idle .moff rfl hidle, hostWrite_of_idle .mlen rfl hidle, hostWrite_of_idle .doff rfl hidle,
    ?lens, ?regions, hostRead_of_idle _ hkey hidle, hostRead_of_idle .cmd rfl hidle,
    hostRead_of_idle .errcmd rfl hidle, ?bytes⟩
  case nonceBack =>
    rw [hostRead_of_idle _ hnonce]
    · exact s.nonce.readWord_writeWord hk v
    · exact hidle
  case taginBack =>
    rw [hostRead_of_idle _ htagin]
    · exact s.tagin.readWord_writeWord hk v
    · exact hidle
  case lens =>
    rw [hostRead_hostWrite_of_idle .lens rfl hidle rfl]
    exact lensWord_writeLens s v
  case regions =>
    simp only [List.forall_mem_cons]
    exact ⟨hostRead_hostWrite_region .aoff rfl hidle rfl rfl, hostRead_hostWrite_region .alen rfl hidle rfl rfl,
      hostRead_hostWrite_region .moff rfl hidle rfl rfl, hostRead_hostWrite_region .mlen rfl hidle rfl rfl,
      hostRead_hostWrite_region .doff rfl hidle rfl rfl, nofun⟩
  case bytes =>
    intro j hj
    rw [hostRead_of_idle _ hnonce hidle, hostRead_of_idle _ htagin hidle, hostRead_of_idle _ htagout hidle]
    exact ⟨s.nonce.regByte_readWord k hj, s.tagin.regByte_readWord k hj, s.tagout.regByte_readWord k hj⟩

end Sys2Proof.Machine
end

section
/-!
The engine's turn on a running block, and the two steps of a command from its CMD write to its completion (O5, O9):
spec/20_memory.md R72, spec/60_exceptions.md R245, R247, R248.
-/

namespace Sys2Proof.Machine

/-- The engine's turn on a latched word that decodes runs the command it names (R245). -/
theorem engineTurn_of_decoded {run : Instr → State → Host.Outcome State Fault Refusal} {s : State} {i : Instr}
    (hrun : s.phase = .run) (hdecode : decode s.cmd = .ok i) : engineTurn run s = run i s := by
  simp [engineTurn, hrun, hdecode]

/-- Settles O5: the turn is taken from the list, and the engine runs the command. -/
theorem stepRunsTheDecodedCommand : Obligations.StepRunsTheDecodedCommand := by
  intro s rest i hrun hturn hdecode
  refine ⟨?_, step_eq s, fun c => ?_⟩
  · rw [step, machineStep_engine _ _ s rest hturn]
    exact engineTurn_of_decoded hrun hdecode
  · rw [stepAt, machineStep_engine _ _ s rest hturn]
    exact engineTurn_of_decoded hrun hdecode

/-! ## The error record of a command -/

/-- From `s` to `t` the error record ERR, ERRCODE, ERRCMD is kept, or an error is recorded with the word latched in `s`
(R247). -/
def State.KeepsOrRecordsError (s t : State) : Prop :=
  (t.err = s.err ∧ t.errcode = s.errcode ∧ t.errcmd = s.errcmd) ∨
  (t.err = true ∧ t.errcode ≠ .none ∧ t.errcmd = s.cmd)

/-- Completion records its code when it is an error, and else keeps the record (R247). -/
theorem State.complete_keepsOrRecordsError (s : State) (e : ErrorCode) : s.KeepsOrRecordsError (s.complete e) := by
  by_cases h : e = .none
  · exact .inl (by simp [h])
  · exact .inr (by simp [State.complete, (ErrorCode.isError_iff e).2 h, h])

/-- A match keeps the record, a mismatch records AUTHENTICATION_FAILURE (R206, R207). -/
theorem verifyAndComplete_keepsOrRecordsError (s : State) (sch : Scheme) :
    s.KeepsOrRecordsError (s.verifyAndComplete sch) := by
  rcases verifyAndComplete_cases s sch with ⟨-, e⟩ | ⟨-, e⟩ <;> rw [e]
  · exact .inl ⟨rfl, rfl, rfl⟩
  · exact .inr ⟨rfl, nofun, rfl⟩

/-- Of the commands whose pre-checks pass, only a verification records an error (R247). -/
theorem commandBody_keepsOrRecordsError (c : Params) (i : Instr) (s : State) :
    s.KeepsOrRecordsError (commandBody c i s) := by
  cases i with
  | aeadDec sch | verify sch => exact verifyAndComplete_keepsOrRecordsError _ sch
  | nop | clear | aeadEnc | init | absorb | permute | copy | squeeze | enc | dec => exact .inl (by simp [commandBody])

theorem commandAt_keepsOrRecordsError (c : Params) (i : Instr) (s : State) :
    s.KeepsOrRecordsError (commandAt c i s) := by
  rcases commandAt_cases c i s with ⟨-, e⟩ | ⟨-, e⟩ <;> rw [e]
  · exact commandBody_keepsOrRecordsError c i s
  · exact s.complete_keepsOrRecordsError _

/-! ## From acceptance to completion -/

/-- A CMD write while idle is accepted, whatever the word (R248). -/
theorem step_cmdWrite_of_idle {s : State} {w : Reg} {rest : List PortEvent} (hidle : s.phase = .idle)
    (hport : s.port = .write .word 0x010 w :: rest) :
    step s = .next { s.accept w with port := rest, response := some .writeDone } := by
  have hwrite : hostWrite Config.params { s with port := rest } (0x010 : BitVec 14).toNat w =
      State.accept { s with port := rest } w := hostWrite_of_idle .cmd rfl hidle
  rw [step, machineStep_write _ _ s _ _ _ rest hport, portWrite, if_pos (by decide), hwrite]
  rfl

/-- The engine's turn completes a running command, legal or not (R241, R247). -/
theorem engineStep_completes {s : State} (hrun : s.phase = .run) :
    ∃ u, engineStep s = .next u ∧ u.phase = .idle ∧ u.done = true ∧ u.port = s.port ∧ s.KeepsOrRecordsError u := by
  rcases engineStep_cases s with ⟨hphase, -⟩ | ⟨hphase, -⟩ | ⟨-, -, -, e⟩ | ⟨-, i, -, e⟩
  · simp [hrun] at hphase
  · simp [hrun] at hphase
  · exact ⟨_, e, rfl, rfl, rfl, s.complete_keepsOrRecordsError _⟩
  · obtain ⟨u, code, hcompleted, hkept⟩ := commandAt_eq_complete Config.params i s
    have hport : u.port = s.port := by
      simp only [State.hostOwned, Prod.mk.injEq] at hkept
      simp [hkept]
    exact ⟨_, e, by simp [hcompleted], by simp [hcompleted], by simp [hcompleted, hport],
      commandAt_keepsOrRecordsError _ i s⟩

/-- Settles O9: acceptance leaves a running block with no error recorded, and the engine's turn completes it. -/
theorem acceptedCommandCompletes : Obligations.AcceptedCommandCompletes := by
  intro s w rest hidle hport
  obtain ⟨u, hturn, hphase, hdone, hrest, hrecord⟩ :=
    engineStep_completes (s := { s.accept w with port := rest, response := some .writeDone }) rfl
  refine ⟨_, u, step_cmdWrite_of_idle hidle hport, rfl, rfl, ?turn, by simp [hphase], hdone, hrest, ?record⟩
  case turn =>
    rw [step, machineStep_engine _ _ _ rest (.inr rfl)]
    exact hturn
  case record =>
    obtain ⟨herr, hcode, hcmd⟩ | ⟨herr, hcode, hcmd⟩ := hrecord
    · have hclean : u.err = false ∧ u.errcode = .none ∧ u.errcmd = 0 := ⟨herr, hcode, hcmd⟩
      simp [hclean]
    · have hword : u.errcmd = w := hcmd
      simp [herr, hcode, hword]

end Sys2Proof.Machine
end

section
/-!
The accesses of the host port (O44 to O47, O49): a refused one, a supported read, the busy window, OUT_LOCK, and the
words of IBUF (spec/20_memory.md R61 to R70, spec/60_exceptions.md R258).
-/

namespace Sys2Proof.Machine

/-! ## Refused accesses and supported reads -/

/-- An access of another width, or at an offset that is no multiple of 4, is not supported (R61). -/
theorem accessSupported_eq_false {width : AccessWidth} {off : BitVec 14} (h : width ≠ .word ∨ off.toNat % 4 ≠ 0) :
    accessSupported width off = false := by
  simp only [accessSupported, Bool.and_eq_false_iff, beq_eq_false_iff_ne]
  exact h

/-- Settles O44: neither a read nor a write reaches the port's targets when the access is refused. -/
theorem unsupportedAccessChangesNothing : Obligations.UnsupportedAccessChangesNothing := by
  intro s width off v rest h
  have hrefused := accessSupported_eq_false h
  refine ⟨fun hport => ?_, fun hport => ?_, rfl⟩
  · rw [step, machineStep_read _ _ s width off rest hport, portRead, hrefused]
    rfl
  · rw [step, machineStep_write _ _ s width off v rest hport, portWrite, hrefused]
    rfl

/-- What a read returns depends neither on the events to come nor on the last answer. -/
theorem hostRead_setPort_setResponse (c : Params) (s : State) (events : List PortEvent) (resp : Option PortResponse)
    (off : Nat) : hostRead c { s with port := events, response := resp } off = hostRead c s off := by
  have htarget : ∀ target, readTarget c { s with port := events, response := resp } target = readTarget c s target := by
    intro target
    cases target <;> rfl
  simp only [hostRead, htarget]
  rfl

/-- Settles O45: the step is the port's read, and its value does not depend on the event taken. -/
theorem readsHaveNoSideEffect : Obligations.ReadsHaveNoSideEffect := by
  intro s off rest haligned hport
  refine ⟨?_, fun resp => hostRead_setPort_setResponse _ s rest resp _⟩
  have hsupported : accessSupported .word off = true := by simp [accessSupported, haligned]
  rw [step, machineStep_read _ _ s _ off rest hport, portRead, if_pos hsupported,
    hostRead_setPort_setResponse _ s rest s.response]

/-! ## The busy window -/

/-- A target that R68 closes reads 0 while busy. -/
theorem hostRead_of_busy {c : Params} {s : State} {off : Nat} (hbusy : s.phase ≠ .idle)
    (hclosed : readableWhileBusy (portTarget c off) = false) : hostRead c s off = 0 := by
  simp [hostRead, hclosed, hbusy]

/-- A write to a target that R68 closes only sets OVR while busy. -/
theorem hostWrite_of_busy {c : Params} {s : State} {off : Nat} {v : Reg} (hbusy : s.phase ≠ .idle)
    (hdropped : droppedWhileBusy (portTarget c off) = true) : hostWrite c s off v = { s with ovr := true } := by
  simp [hostWrite, hdropped, hbusy]

/-- A target readable while busy is a register at one of eight offsets (R68). -/
theorem offset_of_readableWhileBusy {c : Params} {off : Nat} (h : readableWhileBusy (portTarget c off) = true) :
    off ∈ [0x000, 0x004, 0x008, 0x00C, 0x02C, 0x030, 0x034, 0x03C] := by
  have listed : ∀ p ∈ registerMap, readableWhileBusy p.2 = true →
      p.1 ∈ [0x000, 0x004, 0x008, 0x00C, 0x02C, 0x030, 0x034, 0x03C] := by decide
  rcases portTarget_cases c off with hmem | ⟨k, e⟩ | ⟨k, e⟩ | e
  · exact listed _ hmem h
  · simp [e, readableWhileBusy] at h
  · simp [e, readableWhileBusy] at h
  · simp [e, readableWhileBusy] at h

/-- Of all targets only STATUS shows whether the block is busy (R30, R39). -/
theorem readTarget_setPhase (c : Params) (s : State) (p : Phase) {target : PortTarget} (h : target ≠ .status) :
    readTarget c { s with phase := p } target = readTarget c s target := by
  cases target with
  | status => contradiction
  | _ => rfl

/-- A target that R68 leaves open, other than STATUS, reads the same in every phase. -/
theorem hostRead_setPhase_of_readable {c : Params} {s : State} {p : Phase} {off : Nat} (target : PortTarget)
    (htarget : portTarget c off = target) (hreadable : readableWhileBusy target = true) (h : target ≠ .status) :
    hostRead c s off = hostRead c { s with phase := p } off := by
  rw [hostRead_of_readable target htarget hreadable, hostRead_of_readable target htarget hreadable,
    readTarget_setPhase c s p h]

/-- The seven offsets that read the same in every phase (R68). -/
theorem hostRead_setPhase (c : Params) (s : State) (p : Phase) :
    ∀ off ∈ [0x000, 0x004, 0x008, 0x02C, 0x030, 0x034, 0x03C],
      hostRead c s off = hostRead c { s with phase := p } off := by
  simp only [List.forall_mem_cons]
  exact ⟨hostRead_setPhase_of_readable .id rfl rfl nofun, hostRead_setPhase_of_readable .version rfl rfl nofun,
    hostRead_setPhase_of_readable .ctrl rfl rfl nofun, hostRead_setPhase_of_readable .domcfg rfl rfl nofun,
    hostRead_setPhase_of_readable .rndcfg rfl rfl nofun, hostRead_setPhase_of_readable .bufcfg rfl rfl nofun,
    hostRead_setPhase_of_readable .paramcfg rfl rfl nofun, nofun⟩

/-- STATUS while busy is STATUS while idle with the bit BUSY (R30, R68). -/
theorem statusWord_of_busy {s : State} (hbusy : s.phase ≠ .idle) :
    s.statusWord = ({ s with phase := .idle } : State).statusWord ||| 1 := by
  have hset : s.busy = true := s.busy_eq_true.2 hbusy
  apply BitVec.eq_of_getLsbD_eq
  intro i hi
  rw [BitVec.getLsbD_or, getLsbD_statusWord, getLsbD_statusWord, hset]
  by_cases h : i = 0 <;> simp [h, BitVec.getLsbD_one]

/-- The registers from CMD to DOFF and from KEY0 to TAGIN3 are dropped while busy (R62, R68). -/
theorem droppedWhileBusy_operands (c : Params) {off : Nat} (haligned : off % 4 = 0)
    (h : (0x010 ≤ off ∧ off < 0x02C) ∨ (0x040 ≤ off ∧ off < 0x070)) : droppedWhileBusy (portTarget c off) = true := by
  have listed : ∀ k < 28, (4 ≤ k ∧ k < 11) ∨ 16 ≤ k → (registerMap.lookup (4 * k)).any droppedWhileBusy = true := by
    decide
  obtain ⟨k, rfl⟩ := Nat.dvd_of_mod_eq_zero haligned
  obtain ⟨target, hlookup, hdropped⟩ := (Option.any_eq_true _ _).1 (listed k (by omega) (by omega))
  rwa [portTarget_register c _ target hlookup]

/-- The targets that ignore every write, idle or busy (R63). -/
def PortTarget.readOnly : PortTarget → Bool
  | .id | .version | .domcfg | .rndcfg | .bufcfg | .errcmd | .paramcfg | .tagout _ | .obuf _ | .unmapped => true
  | _ => false

theorem hostWrite_of_readOnly {c : Params} {s : State} {off : Nat} {v : Reg}
    (h : (portTarget c off).readOnly = true) : hostWrite c s off v = s := by
  cases htarget : portTarget c off with
  | id | version | domcfg | rndcfg | bufcfg | errcmd | paramcfg | tagout | obuf | unmapped =>
    exact hostWrite_of_ignored _ htarget rfl rfl
  | _ =>
    rw [htarget] at h
    contradiction

/-- Outside CTRL, STATUS, the operand registers and IBUF every offset is read-only (R62, R63). -/
theorem readOnly_of_offset {c : Params} {off : Nat}
    (h : off < 0x008 ∨ (0x02C ≤ off ∧ off < 0x040) ∨ (0x070 ≤ off ∧ off < 0x1000) ∨ 0x1000 + c.bufBytes ≤ off) :
    (portTarget c off).readOnly = true := by
  have listed : ∀ p ∈ registerMap, p.1 < 0x008 ∨ (0x02C ≤ p.1 ∧ p.1 < 0x040) ∨ 0x070 ≤ p.1 →
      p.2.readOnly = true := by decide
  rcases portTarget_cases c off with hmem | ⟨k, e⟩ | ⟨k, e⟩ | e
  · exact listed _ hmem (by simp only; omega)
  · obtain ⟨hoff, hk⟩ := portTarget_eq_ibuf c off k e
    omega
  · rw [e]; rfl
  · rw [e]; rfl

/-- Settles O46, by which targets R68 leaves open. -/
theorem busyWindowDropsOperandAccesses : Obligations.BusyWindowDropsOperandAccesses := by
  intro s off v hbusy haligned
  refine ⟨fun hoff => ?closed, hostRead_setPhase _ s .idle off, ?status, hostWrite_of_open .ctrl rfl rfl,
    hostWrite_of_open .status rfl rfl, fun hoff => hostWrite_of_busy hbusy ?dropped,
    fun hoff => hostWrite_of_readOnly (readOnly_of_offset hoff)⟩
  case closed =>
    exact hostRead_of_busy hbusy (Bool.eq_false_iff.2 fun h => hoff (offset_of_readableWhileBusy h))
  case status =>
    rw [hostRead_of_readable .status rfl rfl, hostRead_of_readable .status rfl rfl]
    exact statusWord_of_busy hbusy
  case dropped =>
    rcases hoff with hlow | hhigh | ⟨hlower, hupper⟩
    · exact droppedWhileBusy_operands _ haligned (.inl hlow)
    · exact droppedWhileBusy_operands _ haligned (.inr hhigh)
    · obtain ⟨k, rfl⟩ := Nat.exists_eq_add_of_le hlower
      rw [portTarget_ibuf _ k (by omega)]
      rfl

/-! ## The words of the buffers -/

/-- Byte `j` of a buffer word (R65). -/
theorem Memory.regByte_readReg (m : Memory) (off : Nat) {j : Nat} (h : j < 4) :
    regByte (m.readReg off) j = m.read (off + j) :=
  regByte_packReg _ j h

/-- A word write sets its four bytes big-endian (R65). -/
theorem Memory.read_writeReg {m : Memory} (h : m.wf) (off : Nat) (v : Reg) {j : Nat} (hj : j < 4) :
    (m.writeReg off v).read (off + j) = regByte v j := by
  rw [Memory.writeReg, Memory.read_writeBytes m h, if_pos (by simpa using hj), Nat.add_sub_cancel_left]
  interval_cases j <;> rfl

/-- A word reads what was written to it (R65). -/
theorem Memory.readReg_writeReg {m : Memory} (h : m.wf) (off : Nat) (v : Reg) : (m.writeReg off v).readReg off = v :=
  calc (m.writeReg off v).readReg off
      = packReg (regByte v) := by simp only [Memory.readReg, packReg, Memory.read_writeReg h, Nat.reduceLT]
    _ = v := packReg_regByte v

/-- Settles O47: the lock stands in the host's read of an OBUF word only. -/
theorem outLockWithholdsObufFromTheHostOnly : Obligations.OutLockWithholdsObufFromTheHostOnly := by
  intro s k hk
  have htarget : portTarget Config.params (0x2000 + 4 * k) = .obuf (4 * k) := portTarget_obuf _ _ hk (by simp)
  refine ⟨fun hlock => ?locked, fun l => rfl, fun hlock hidle j hj => ?unlocked⟩
  case locked =>
    rcases hostRead_cases Config.params s (0x2000 + 4 * k) with ⟨-, -, e⟩ | ⟨-, e⟩ <;> rw [e]
    rw [htarget, readTarget, if_pos hlock]
  case unlocked =>
    rw [hostRead_of_idle _ htarget hidle, readTarget, hlock]
    exact s.obuf.regByte_readReg (4 * k) hj

/-- Settles O49: the write is a word write of IBUF, in canonical form. -/
theorem ibufWordHoldsWhatIsWritten : Obligations.IbufWordHoldsWhatIsWritten := by
  intro s k v hidle hwf hk
  have htarget : portTarget Config.params (0x1000 + 4 * k) = .ibuf (4 * k) := portTarget_ibuf _ _ hk
  refine ⟨s.ibuf.writeReg (4 * k) v, hostWrite_of_idle _ htarget hidle, Memory.wf_writeBytes _ _ _ hwf,
    fun j hj => Memory.read_writeReg hwf _ v hj, fun a ha => Memory.read_writeBytes_outside _ hwf _ _ a ha, ?_⟩
  calc hostRead Config.params { s with ibuf := s.ibuf.writeReg (4 * k) v } (0x1000 + 4 * k)
      = (s.ibuf.writeReg (4 * k) v).readReg (4 * k) := hostRead_of_idle _ htarget hidle
    _ = v := Memory.readReg_writeReg hwf _ v

end Sys2Proof.Machine
end

section
/-!
The command word (O1 to O4): spec/30_encoding.md R90 to R100, R103. A word is the fixed bits of its row of the table and
the bits the row leaves free; decoding reads those as operands, and encoding puts the operands back in their places.
-/

namespace Sys2Proof

/-! ## The opcode and the fixed bits of a word -/

theorem Opcode.ofByte_byte (op : Opcode) : Opcode.ofByte op.byte = some op := by cases op <;> rfl

/-- Every mask of R98 fixes all of OP, so the words of two rows differ in OP (R100). -/
theorem fieldOp_of_match {op : Opcode} {w : Reg} (h : w &&& op.mask = op.pattern) : fieldOp w = op.byte := by
  have hmask : fieldOp op.mask = BitVec.allOnes 8 := by cases op <;> rfl
  have hpattern : fieldOp op.pattern = op.byte := by cases op <;> rfl
  calc fieldOp w
      = fieldOp w &&& fieldOp op.mask := by rw [hmask, BitVec.and_allOnes]
    _ = fieldOp (w &&& op.mask) := BitVec.extractLsb'_and.symm
    _ = op.byte := by rw [h, hpattern]

/-- A word with the fixed bits of a row is decoded by that row (R100). -/
theorem decode_of_match {op : Opcode} {w : Reg} (h : w &&& op.mask = op.pattern) : decode w = decodeFields op w := by
  simp [decode, fieldOp_of_match h, Opcode.ofByte_byte, h]

/-- A legal word has the fixed bits of a row, and its operands are read by that row (R100). -/
theorem decode_eq_ok_iff {w : Reg} {i : Instr} :
    decode w = .ok i ↔ ∃ op : Opcode, w &&& op.mask = op.pattern ∧ decodeFields op w = .ok i := by
  constructor
  · intro h
    unfold decode at h
    split at h
    · contradiction
    · split at h
      · exact ⟨_, ‹_›, h⟩
      · contradiction
  · rintro ⟨op, hmatch, hfields⟩
    rw [decode_of_match hmatch, hfields]

/-! ## The operands: a field read from a word, put back in its place, is the word's bits there -/

theorem schemeOf_eq_some_iff (x : BitVec 2) (s : Scheme) : schemeOf x = some s ↔ s.bits = x.setWidth 32 := by
  cases s <;> revert x <;> decide

theorem destOf_eq_some_iff (x : BitVec 2) (d : SqueezeDest) : destOf x = some d ↔ d.bits = x.setWidth 32 := by
  cases d <;> revert x <;> decide

theorem exists_schemeOf_iff (x : BitVec 2) : (∃ s, schemeOf x = some s) ↔ x.toNat ≤ 1 := by
  rw [← Option.isSome_iff_exists]
  revert x
  decide

theorem exists_destOf_iff (x : BitVec 2) : (∃ d, destOf x = some d) ↔ x ≠ 3 := by
  rw [← Option.isSome_iff_exists]
  revert x
  decide

theorem bankOf_bits (b : Bool) : (bankOf b).bits = flagBits b := by cases b <;> rfl

theorem sourceOf_bits (b : Bool) : (sourceOf b).bits = flagBits b := by cases b <;> rfl

/-- A bit field of a word, put back in its place. -/
theorem extractLsb'_setWidth_shiftLeft (w : Reg) (start len : Nat) :
    (w.extractLsb' start len).setWidth 32 <<< start = w &&& (BitVec.allOnes len).setWidth 32 <<< start := by
  ext j hj
  simp only [BitVec.getElem_shiftLeft, BitVec.getElem_and, BitVec.getElem_setWidth, BitVec.getLsbD_extractLsb',
    BitVec.getLsbD_allOnes]
  by_cases h : j < start
  · simp [h]
  · simp [h, Nat.add_sub_cancel' (Nat.le_of_not_lt h), BitVec.getLsbD_eq_getElem hj, Bool.and_comm]

/-- A one-bit field of a word, put back in its place. -/
theorem flagBits_shiftLeft (w : Reg) (pos : Nat) : flagBits (w.getLsbD pos) <<< pos = w &&& BitVec.twoPow 32 pos := by
  rw [BitVec.and_twoPow, flagBits]
  split
  · exact (BitVec.twoPow_eq 32 pos).symm
  · simp

/-- X[0] is bit 12 of the word (R95). -/
theorem getLsbD_fieldX_zero (w : Reg) : (fieldX w).getLsbD 0 = w.getLsbD 12 := BitVec.getLsbD_extractLsb' 12 2 w 0

/-- A word is its fixed bits and the bits its row leaves free. -/
theorem pattern_or_free {op : Opcode} {w : Reg} (h : w &&& op.mask = op.pattern) :
    op.pattern ||| w &&& ~~~op.mask = w := by
  rw [← h, ← BitVec.and_or_distrib_left, BitVec.or_not_self]
  exact BitVec.and_allOnes

/-- SCH of the scheme read is bits 9:8. -/
theorem schemeBits_of_fieldSch {w : Reg} {s : Scheme} (h : schemeOf (fieldSch w) = some s) :
    s.bits <<< 8 = w &&& 0x300 := by
  rw [(schemeOf_eq_some_iff _ s).1 h]
  exact extractLsb'_setWidth_shiftLeft w 8 2

theorem bankBits_of_fieldBank (w : Reg) : (bankOf (fieldBank w)).bits <<< 10 = w &&& 0x400 := by
  rw [bankOf_bits]
  exact flagBits_shiftLeft w 10

theorem flagBits_of_fieldLs (w : Reg) : flagBits (fieldLs w) <<< 11 = w &&& 0x800 := flagBits_shiftLeft w 11

theorem flagBits_of_fieldX (w : Reg) : flagBits ((fieldX w).getLsbD 0) <<< 12 = w &&& 0x1000 := by
  rw [getLsbD_fieldX_zero]
  exact flagBits_shiftLeft w 12

theorem sourceBits_of_fieldX (w : Reg) : (sourceOf ((fieldX w).getLsbD 0)).bits <<< 12 = w &&& 0x1000 := by
  rw [sourceOf_bits]
  exact flagBits_of_fieldX w

theorem destBits_of_fieldX {w : Reg} {d : SqueezeDest} (h : destOf (fieldX w) = some d) :
    d.bits <<< 12 = w &&& 0x3000 := by
  rw [(destOf_eq_some_iff _ d).1 h]
  exact extractLsb'_setWidth_shiftLeft w 12 2

theorem roundBits_of_fieldRnd (w : Reg) : (fieldRnd w).setWidth 32 <<< 16 = w &&& 0xF0000 :=
  extractLsb'_setWidth_shiftLeft w 16 4

theorem domainBits_of_fieldDom (w : Reg) : (fieldDom w).setWidth 32 <<< 24 = w &&& 0xFF000000 :=
  extractLsb'_setWidth_shiftLeft w 24 8

/-! ## What each row reads -/

theorem withScheme_eq_ok_iff (w : Reg) (k : Scheme → Except Illegal Instr) (i : Instr) :
    withScheme w k = .ok i ↔ ∃ s, schemeOf (fieldSch w) = some s ∧ k s = .ok i := by
  unfold withScheme
  cases schemeOf (fieldSch w) <;> simp

/-- SQUEEZE needs a scheme and a destination (R95). -/
theorem decodeFields_squeeze_eq_ok_iff (w : Reg) (i : Instr) :
    decodeFields .squeeze w = .ok i ↔ ∃ s d, schemeOf (fieldSch w) = some s ∧ destOf (fieldX w) = some d ∧
      i = .squeeze s (bankOf (fieldBank w)) d := by
  rw [decodeFields, withScheme_eq_ok_iff]
  cases destOf (fieldX w) <;> simp [eq_comm]

/-- PERMUTE needs a scheme and at most 12 rounds (R96). -/
theorem decodeFields_permute_eq_ok_iff (w : Reg) (i : Instr) :
    decodeFields .permute w = .ok i ↔ ∃ s, schemeOf (fieldSch w) = some s ∧ (fieldRnd w).toNat ≤ 12 ∧
      i = .permute s (bankOf (fieldBank w)) (fieldRnd w) := by
  rw [decodeFields, withScheme_eq_ok_iff]
  by_cases h : (fieldRnd w).toNat ≤ 12 <;> simp [h, eq_comm]

/-- The command a row reads is well-formed, and its word is the row's fixed bits and the bits of `w` that the row leaves
free (R96, R98). -/
theorem wellFormed_encode_of_decodeFields {op : Opcode} {w : Reg} {i : Instr} (h : decodeFields op w = .ok i) :
    i.WellFormed ∧ encode i = op.pattern ||| w &&& ~~~op.mask := by
  cases op with
  | nop | clear =>
    obtain rfl := Except.ok.inj h
    exact ⟨rfl, by simp [encode, Opcode.pattern, Opcode.byte, Opcode.mask]⟩
  | copy =>
    obtain rfl := Except.ok.inj h
    refine ⟨rfl, ?_⟩
    rw [encode, bankBits_of_fieldBank]
    rfl
  | aeadEnc | aeadDec | verify =>
    obtain ⟨s, hs, hi⟩ := (withScheme_eq_ok_iff w _ i).1 h
    obtain rfl := Except.ok.inj hi
    refine ⟨rfl, ?_⟩
    rw [encode, schemeBits_of_fieldSch hs]
    rfl
  | init | enc | dec | absorb =>
    obtain ⟨s, hs, hi⟩ := (withScheme_eq_ok_iff w _ i).1 h
    obtain rfl := Except.ok.inj hi
    refine ⟨rfl, ?_⟩
    simp only [encode, schemeBits_of_fieldSch hs, bankBits_of_fieldBank, flagBits_of_fieldX, flagBits_of_fieldLs,
      sourceBits_of_fieldX, domainBits_of_fieldDom, BitVec.or_assoc, ← BitVec.and_or_distrib_left]
    rfl
  | squeeze =>
    obtain ⟨s, d, hs, hd, rfl⟩ := (decodeFields_squeeze_eq_ok_iff w i).1 h
    refine ⟨rfl, ?_⟩
    simp only [encode, schemeBits_of_fieldSch hs, bankBits_of_fieldBank, destBits_of_fieldX hd, BitVec.or_assoc,
      ← BitVec.and_or_distrib_left]
    rfl
  | permute =>
    obtain ⟨s, hs, hrnd, rfl⟩ := (decodeFields_permute_eq_ok_iff w i).1 h
    refine ⟨decide_eq_true hrnd, ?_⟩
    simp only [encode, schemeBits_of_fieldSch hs, bankBits_of_fieldBank, roundBits_of_fieldRnd, BitVec.or_assoc,
      ← BitVec.and_or_distrib_left]
    rfl

/-- Settles O3: a legal word is its row's fixed bits and its free bits, and so is the word of the command read from
it. -/
theorem encodeOfDecodeIsTheWord : Obligations.EncodeOfDecodeIsTheWord := by
  intro w i h
  obtain ⟨op, hmatch, hfields⟩ := decode_eq_ok_iff.1 h
  obtain ⟨hwf, hword⟩ := wellFormed_encode_of_decodeFields hfields
  exact ⟨hwf, hword.trans (pattern_or_free hmatch)⟩

/-- A row's extra legality is what its operands need to be readable (R98, R100). -/
theorem exists_decodeFields_iff (op : Opcode) (w : Reg) :
    (∃ i, decodeFields op w = .ok i) ↔
      ((op ≠ .nop ∧ op ≠ .clear ∧ op ≠ .copy) → (fieldSch w).toNat ≤ 1) ∧
      (op = .squeeze → fieldX w ≠ 3) ∧ (op = .permute → (fieldRnd w).toNat ≤ 12) := by
  rw [← exists_schemeOf_iff, ← exists_destOf_iff]
  cases op with
  | squeeze => simp [decodeFields_squeeze_eq_ok_iff]
  | permute => simp [decodeFields_permute_eq_ok_iff]
  | _ => simp [decodeFields, withScheme_eq_ok_iff]

/-- Settles O4: a word is legal when it has a row's fixed bits and that row can read its operands. -/
theorem legalWordsAreTheTablesWords : Obligations.LegalWordsAreTheTablesWords := by
  intro w
  calc (∃ i, decode w = .ok i)
      ↔ ∃ op : Opcode, w &&& op.mask = op.pattern ∧ ∃ i, decodeFields op w = .ok i := by
        simp only [decode_eq_ok_iff, ← exists_and_left]
        exact exists_comm
    _ ↔ _ := exists_congr fun op => and_congr_right fun _ => exists_decodeFields_iff op w

/-! ## From the command to its word and back -/

/-- A field below a placed one is not touched by it. -/
theorem extractLsb'_or_shiftLeft_of_le (v x : Reg) {start len pos : Nat} (h : start + len ≤ pos) :
    (v ||| x <<< pos).extractLsb' start len = v.extractLsb' start len := by
  ext j hj
  have hbelow : start + j < pos := by omega
  simp [hbelow]

/-- A field placed where the word is 0 is read back. -/
theorem extractLsb'_or_setWidth_shiftLeft {len pos : Nat} (v : Reg) (x : BitVec len) (hfit : pos + len ≤ 32)
    (hfree : v.extractLsb' pos len = 0) : (v ||| x.setWidth 32 <<< pos).extractLsb' pos len = x := by
  rw [BitVec.extractLsb'_or, hfree]
  ext j hj
  have hin : pos + j < 32 := by omega
  simp [hin, BitVec.getLsbD_eq_getElem hj]

/-- SCH, BANK and X are not touched by a field placed at bit 16 or above (R90). -/
theorem lowFields_or_shiftLeft (v x : Reg) {pos : Nat} (h : 16 ≤ pos) :
    fieldSch (v ||| x <<< pos) = fieldSch v ∧ fieldBank (v ||| x <<< pos) = fieldBank v ∧
    fieldX (v ||| x <<< pos) = fieldX v := by
  refine ⟨extractLsb'_or_shiftLeft_of_le v x (by omega), ?_, extractLsb'_or_shiftLeft_of_le v x (by omega)⟩
  have hbelow : 10 < pos := by omega
  simp [fieldBank, hbelow]

/-- DOM placed in a word is read back, and the other operands of ABSORB are the word's (R97). -/
theorem decodeFields_absorb_or (v : Reg) (dom : Byte) (h : fieldDom v = 0) :
    decodeFields .absorb (v ||| dom.setWidth 32 <<< 24) =
      withScheme v fun s => .ok (.absorb s (bankOf (fieldBank v)) (sourceOf ((fieldX v).getLsbD 0)) dom) := by
  obtain ⟨hsch, hbank, hx⟩ := lowFields_or_shiftLeft v (dom.setWidth 32) (pos := 24) (by decide)
  have hdom : fieldDom (v ||| dom.setWidth 32 <<< 24) = dom := extractLsb'_or_setWidth_shiftLeft v dom (by decide) h
  rw [decodeFields, withScheme, hsch, hbank, hx, hdom, withScheme]

/-- A legal RND placed in a word is read back, and the other operands of PERMUTE are the word's (R96). -/
theorem decodeFields_permute_or (v : Reg) (rnd : BitVec 4) (h : fieldRnd v = 0) (hrnd : rnd.toNat ≤ 12) :
    decodeFields .permute (v ||| rnd.setWidth 32 <<< 16) =
      withScheme v fun s => .ok (.permute s (bankOf (fieldBank v)) rnd) := by
  obtain ⟨hsch, hbank, -⟩ := lowFields_or_shiftLeft v (rnd.setWidth 32) (pos := 16) (by decide)
  have hread : fieldRnd (v ||| rnd.setWidth 32 <<< 16) = rnd := extractLsb'_or_setWidth_shiftLeft v rnd (by decide) h
  simp only [decodeFields, withScheme, hsch, hbank, hread, if_pos hrnd]

/-- The row of a well-formed command reads every operand back from the command's word (R100, R103). -/
theorem decodeFields_encode {i : Instr} (h : i.WellFormed) : decodeFields i.opcode (encode i) = .ok i := by
  cases i with
  | nop | clear => rfl
  | aeadEnc s | aeadDec s | verify s => cases s <;> rfl
  | copy dst => cases dst <;> rfl
  | init s bank flag | enc s bank flag | dec s bank flag => cases s <;> cases bank <;> cases flag <;> rfl
  | squeeze s bank dest => cases s <;> cases bank <;> cases dest <;> rfl
  | absorb s bank src dom =>
    cases s <;> cases bank <;> cases src <;> exact decodeFields_absorb_or _ dom rfl
  | permute s bank rnd =>
    have hrnd : rnd.toNat ≤ 12 := of_decide_eq_true h
    cases s <;> cases bank <;> exact decodeFields_permute_or _ rnd rfl hrnd

/-- The word of a command has the fixed bits of its row, for every command. -/
theorem encode_and_mask (i : Instr) : encode i &&& i.opcode.mask = i.opcode.pattern := by
  cases i with
  | nop => exact Laws.EncodeMatchesRow.nop
  | aeadEnc s => exact Laws.EncodeMatchesRow.aeadEnc s
  | aeadDec s => exact Laws.EncodeMatchesRow.aeadDec s
  | clear => exact Laws.EncodeMatchesRow.clear
  | init s bank sfx => exact Laws.EncodeMatchesRow.init s bank sfx
  | absorb s bank src dom => exact Laws.EncodeMatchesRow.absorb s bank src dom
  | squeeze s bank dest => exact Laws.EncodeMatchesRow.squeeze s bank dest
  | enc s bank ls => exact Laws.EncodeMatchesRow.enc s bank ls
  | dec s bank ls => exact Laws.EncodeMatchesRow.dec s bank ls
  | permute s bank rnd => exact Laws.EncodeMatchesRow.permute s bank rnd
  | copy dst => exact Laws.EncodeMatchesRow.copy dst
  | verify s => exact Laws.EncodeMatchesRow.verify s

/-- Settles O2: the word of a command has the fixed bits of its row, and that row reads its operands back. -/
theorem decodeOfEncodeIsTheCommand : Obligations.DecodeOfEncodeIsTheCommand := fun i hwf =>
  decode_eq_ok_iff.2 ⟨i.opcode, encode_and_mask i, decodeFields_encode hwf⟩

/-- Settles O1: the words and forms are fixed, so the decoder and the encoder are run on each. -/
theorem decodeReadsTheWorkedWords : Obligations.DecodeReadsTheWorkedWords := by
  unfold Obligations.DecodeReadsTheWorkedWords
  decide

end Sys2Proof
end

section
/-!
Every step answers, and takes the first event that arrived (O7): spec/20_memory.md R71, spec/60_exceptions.md R250, R256.
-/

namespace Sys2Proof.Machine

/-- In phase IDLE the engine changes nothing (R256). -/
theorem engineTurn_of_idle {run : Instr → State → Host.Outcome State Fault Refusal} {s : State}
    (hidle : s.phase = .idle) : engineTurn run s = .next s := by
  simp [engineTurn, hidle]

/-- The engine's turn always answers, and takes no event (R101, R256, R272). -/
theorem engineStep_port (s : State) : ∃ t, engineStep s = .next t ∧ t.port = s.port := by
  cases hphase : s.phase with
  | idle => exact ⟨s, engineTurn_of_idle hphase, rfl⟩
  | clearReset => exact ⟨s.endClearing, by simp [engineStep, engineTurn, hphase], rfl⟩
  | run =>
    obtain ⟨t, hturn, -, -, hport, -⟩ := engineStep_completes hphase
    exact ⟨t, hturn, hport⟩

theorem State.writeCtrl_port (s : State) (v : Reg) : (s.writeCtrl v).port = s.port := by
  unfold State.writeCtrl
  split <;> rfl

theorem hostWrite_port (c : Params) (s : State) (off : Nat) (v : Reg) : (hostWrite c s off v).port = s.port := by
  rcases hostWrite_cases c s off v with ⟨-, -, e⟩ | ⟨-, e⟩ <;> rw [e]
  cases portTarget c off with
  | ctrl => exact s.writeCtrl_port v
  | _ => rfl

theorem portRead_port (c : Params) (s : State) (width : AccessWidth) (off : BitVec 14) :
    (portRead c s width off).port = s.port := by
  unfold portRead
  split <;> rfl

theorem portWrite_port (c : Params) (s : State) (width : AccessWidth) (off : BitVec 14) (v : Reg) :
    (portWrite c s width off v).port = s.port := by
  rcases portWrite_cases c s width off v with ⟨-, e⟩ | e <;> rw [e]
  exact hostWrite_port c s off.toNat v

/-- Settles O7, by the event that arrived first; with none left, or at its turn, the engine moves. -/
theorem everyStepAnswersANextState : Obligations.EveryStepAnswersANextState := by
  intro s
  refine ⟨?next, fun rest hidle hturn => ?idle⟩
  case idle =>
    rw [step, machineStep_engine _ _ s rest hturn]
    exact engineTurn_of_idle hidle
  case next =>
    cases hport : s.port with
    | nil =>
      rw [step, machineStep_engine _ _ s [] (.inl ⟨hport, rfl⟩)]
      exact engineStep_port _
    | cons event rest =>
      cases event with
      | engine =>
        rw [step, machineStep_engine _ _ s rest (.inr hport)]
        exact engineStep_port _
      | rst => exact ⟨_, machineStep_rst _ _ s rest hport, rfl⟩
      | read width off => exact ⟨_, machineStep_read _ _ s width off rest hport, portRead_port _ _ width off⟩
      | write width off v => exact ⟨_, machineStep_write _ _ s width off v rest hport, portWrite_port _ _ width off v⟩

end Sys2Proof.Machine
end

section
/-!
The ISAP permutation (O31 to O34): spec/40_permutation.md R125 to R128, 93_implementation_defined.md I6. One round
moves each of words 0..4 down one place and diffuses it. Write R for the rotation by one bit: diffusing a word
multiplies it by 1 + R once (words 0, 2, 3) or twice (words 1, 4), and sixty-four such factors give 0, since
(1 + R)^64 = 1 + R^64 and R^64 = 1. Forty-six rounds hold at least that many for every word, so a difference of two
states is gone by then.
-/

namespace Sys2Proof.Machine

/-! ## Steps and rounds, word by word -/

/-- Step (b) is a rotation of the five words: the other word of the formula cancels (R126). -/
theorem isapStepB_word_low (s : Bank) {i : Nat} (h : i < 5) : (isapStepB s).word i = s.word ((i + 1) % 5) := by
  have hback : ((i + 1) % 5 + 4) % 5 = i := by omega
  rw [isapStepB_word s i (by omega), if_pos h, isapT, hback, xor_xor_cancel_comm_assoc]

/-- One round moves each of words 0..4 down one place and diffuses it there (R125 to R127). -/
theorem isapRound_word_low (k : Word) (s : Bank) {i : Nat} (h : i < 5) :
    (isapRound k s).word i = isapDiffuse i ((isapStepA k s).word ((i + 1) % 5)) := by
  rw [isapRound, isapStepC_word _ i (by omega), if_pos h, isapStepB_word_low _ h]

/-- Settles O31. -/
theorem isapStepsAddConstantAndRotateWords : Obligations.IsapStepsAddConstantAndRotateWords := by
  intro c s _
  refine ⟨fun i => isapStepA_word _ s i, fun i => ?_, fun i hi => isapStepB_word_low s hi⟩
  by_cases h : i < 25
  · exact isapStepB_word s i h
  · rw [Bank.word_of_le _ i (by omega), if_neg (by omega), Bank.word_of_le _ i (by omega)]

/-- Settles O32, one rotation pair of R127 for each of the five words. -/
theorem isapRoundMovesEachWordDown : Obligations.IsapRoundMovesEachWordDown := by
  intro k s
  refine ⟨?_, ?_, ?_, ?_, ?_, fun c n => ⟨fun i h5 => ?_, isapPerm_zero c s⟩⟩
  case refine_6 => rw [isapPerm_eq_rounds, isapRounds_word_high _ s i h5]
  all_goals
    rw [isapRound_word_low k s (by omega), isapStepA_word]
    rfl

/-! ## The permutation as written is not injective -/

/-- The pair of word 4 sends 0 and the word of ones to 0 (R127). -/
theorem isapDiffuse_four_allOnes : isapDiffuse 4 (BitVec.allOnes 64) = isapDiffuse 4 0 := by decide

/-- A round does not tell a zero in word 0 from the word of ones, which it moves to word 4 (R127). -/
theorem isapRound_set_allOnes (k : Word) (s : Bank) :
    isapRound k (s.set 0 (BitVec.allOnes 64)) = isapRound k (s.set 0 0) := by
  apply Bank.ext
  intro i _
  by_cases h5 : i < 5
  · rw [isapRound_word_low k _ h5, isapRound_word_low k _ h5]
    by_cases h4 : i = 4
    · subst h4
      simpa [isapStepA_word, Bank.word_set] using isapDiffuse_four_allOnes
    · have hnext : (i + 1) % 5 ≠ 0 := by omega
      simp [isapStepA_word, Bank.word_set, hnext]
  · rw [isapRound_word_high k _ i (by omega), isapRound_word_high k _ i (by omega), Bank.word_set, Bank.word_set,
      if_neg (by omega), if_neg (by omega)]

/-- Settles O33: the first round already sends two banks to one. -/
theorem isapPermutationIsNotInjective : Obligations.IsapPermutationIsNotInjective := by
  intro c n hn
  refine ⟨Bank.zero.set 0 (BitVec.allOnes 64), Bank.zero.set 0 0, fun heq => ?_, ?_⟩
  · have hword := congrArg (Bank.word · 0) heq
    simp [Bank.word_set] at hword
  · obtain ⟨m, rfl⟩ := Nat.exists_eq_succ_of_ne_zero (Nat.pos_iff_ne_zero.1 hn)
    simp only [isapPerm_eq_rounds, List.range_succ_eq_map, List.map_cons, isapRounds, List.foldl_cons,
      isapRound_set_allOnes]

/-! ## Rotations and rotation differences -/

theorem rotl_rotl (x : Word) {m n : Nat} (hm : m < 64) (hn : n < 64) : rotl (rotl x m) n = rotl x ((m + n) % 64) := by
  apply BitVec.eq_of_getElem_eq
  intro i hi
  have hmod : (i + (64 - n)) % 64 < 64 := Nat.mod_lt _ (by omega)
  rw [getElem_rotl _ n hn i hi, getElem_rotl x _ (Nat.mod_lt _ (by omega)) i hi, BitVec.getLsbD_eq_getElem hmod,
    getElem_rotl x m hm _ hmod]
  congr 1
  omega

/-- The word XORed with its rotation by `n` bits: the multiple of the word by 1 + R^n. -/
def rotDiff (n : Nat) (x : Word) : Word := x ^^^ rotl x n

theorem rotl_rotDiff (x : Word) {m n : Nat} (hm : m < 64) (hn : n < 64) :
    rotl (rotDiff m x) n = rotDiff m (rotl x n) := by
  rw [rotDiff, rotDiff, rotl_xor, rotl_rotl x hm hn, rotl_rotl x hn hm, Nat.add_comm]

theorem rotDiff_xor (n : Nat) (x y : Word) : rotDiff n (x ^^^ y) = rotDiff n x ^^^ rotDiff n y := by
  simp only [rotDiff, rotl_xor]
  ac_rfl

theorem rotDiff_comm (x : Word) {m n : Nat} (hm : m < 64) (hn : n < 64) :
    rotDiff m (rotDiff n x) = rotDiff n (rotDiff m x) := by
  rw [rotDiff.eq_1 n, rotDiff_xor, ← rotl_rotDiff x hm hn, ← rotDiff]

/-- The square of 1 + R^n is 1 + R^2n: the two middle terms cancel. -/
theorem rotDiff_rotDiff (x : Word) {n : Nat} (hn : n < 64) : rotDiff n (rotDiff n x) = rotDiff (2 * n % 64) x := by
  rw [rotDiff, rotDiff, rotl_xor, rotl_rotl x hn hn, ← two_mul, BitVec.xor_assoc, xor_cancel_left, ← rotDiff]

/-- 1 + R divides 1 + R^n. -/
theorem exists_rotDiff_one (x : Word) {n : Nat} (hn : n < 64) : ∃ y, rotDiff n x = rotDiff 1 y := by
  induction n with
  | zero => exact ⟨0, by rw [rotDiff, rotl_zero, BitVec.xor_self]; rfl⟩
  | succ n ih =>
    obtain ⟨y, hy⟩ := ih (by omega)
    refine ⟨x ^^^ rotl y 1, ?_⟩
    have hstep : rotl x (n + 1) = rotl (rotl x n) 1 := by
      rw [rotl_rotl x (by omega) (by omega), Nat.mod_eq_of_lt hn]
    calc rotDiff (n + 1) x
        = x ^^^ rotl x 1 ^^^ rotl (x ^^^ rotl x n) 1 := by
          rw [rotDiff, hstep, rotl_xor, BitVec.xor_assoc, xor_cancel_left]
      _ = rotDiff 1 x ^^^ rotl (rotDiff n x) 1 := rfl
      _ = rotDiff 1 (x ^^^ rotl y 1) := by rw [hy, rotl_rotDiff y (by omega) (by omega), rotDiff_xor]

/-! ## Multiples of the powers of 1 + R -/

/-- The word is a multiple by (1 + R)^v: `v` rotation differences by one bit yield it. -/
def RotMultiple (v : Nat) (x : Word) : Prop := ∃ y, (rotDiff 1)^[v] y = x

theorem rotMultiple_zero (x : Word) : RotMultiple 0 x := ⟨x, rfl⟩

/-- A rotation keeps the factors. -/
protected theorem RotMultiple.rotl {v : Nat} {x : Word} (h : RotMultiple v x) {n : Nat} (hn : n < 64) :
    RotMultiple v (rotl x n) := by
  obtain ⟨y, rfl⟩ := h
  have hcomm : Function.Commute (fun z => rotl z n) (rotDiff 1) := fun z => rotl_rotDiff z (by omega) hn
  exact ⟨rotl y n, (hcomm.iterate_right v y).symm⟩

/-- Every rotation difference adds a factor. -/
protected theorem RotMultiple.rotDiff {v : Nat} {x : Word} (h : RotMultiple v x) {n : Nat} (hn : n < 64) :
    RotMultiple (v + 1) (rotDiff n x) := by
  obtain ⟨y, rfl⟩ := h
  have hcomm : Function.Commute (rotDiff n) (rotDiff 1) := fun z => rotDiff_comm z hn (by omega)
  obtain ⟨z, hz⟩ := exists_rotDiff_one y hn
  exact ⟨z, by rw [Function.iterate_succ_apply, ← hz, hcomm.iterate_right v y]⟩

/-- A difference by an even amount adds two. -/
theorem RotMultiple.rotDiff_two_mul {v : Nat} {x : Word} (h : RotMultiple v x) {n : Nat} (hn : 2 * n < 64) :
    RotMultiple (v + 2) (rotDiff (2 * n) x) := by
  have htwice := (h.rotDiff (n := n) (by omega)).rotDiff (n := n) (by omega)
  rwa [rotDiff_rotDiff x (by omega), Nat.mod_eq_of_lt hn] at htwice

/-- (1 + R)^(2^k) = 1 + R^(2^k). -/
theorem rotDiff_one_iterate_two_pow (k : Nat) (x : Word) : (rotDiff 1)^[2 ^ k] x = rotDiff (2 ^ k % 64) x := by
  induction k generalizing x with
  | zero => rfl
  | succ k ih =>
    rw [pow_succ', two_mul, Function.iterate_add_apply, ih, ih, rotDiff_rotDiff x (Nat.mod_lt _ (by omega)), ← two_mul]
    simp

/-- Sixty-four factors 1 + R give 0, since R has order 64. -/
theorem RotMultiple.eq_zero {v : Nat} {x : Word} (h : RotMultiple v x) (hv : 64 ≤ v) : x = 0 := by
  obtain ⟨y, rfl⟩ := h
  obtain ⟨m, rfl⟩ := Nat.exists_eq_add_of_le hv
  rw [Function.iterate_add_apply]
  exact (rotDiff_one_iterate_two_pow 6 _).trans (by simp [rotDiff])

/-! ## What the rounds leave of a difference -/

theorem isapDiffuse_xor (i : Nat) (x y : Word) : isapDiffuse i (x ^^^ y) = isapDiffuse i x ^^^ isapDiffuse i y := by
  simp only [isapDiffuse, rotl_xor]
  ac_rfl

/-- The factors 1 + R in the diffusion of word `i`: the `g` of R127. -/
def isapFactors (i : Nat) : Nat := [1, 2, 1, 1, 2].getD i 0

/-- The XOR of two rotations holds the factors of the difference by what they are apart. -/
theorem RotMultiple.xor_rotations {v d : Nat} {x : Word} (h : RotMultiple v (rotDiff d x)) {m : Nat}
    (hm : m < 64) (hd : d < 64) : RotMultiple v (rotl x m ^^^ rotl x ((d + m) % 64)) := by
  rw [← rotl_rotl x hd hm, ← rotl_xor]
  exact h.rotl hm

/-- Diffusing word `i` adds its factors: its two rotations are 9, 42, 5, 7 and 34 bits apart (R127). -/
protected theorem RotMultiple.isapDiffuse {v : Nat} {x : Word} (h : RotMultiple v x) {i : Nat} (hi : i < 5) :
    RotMultiple (v + isapFactors i) (isapDiffuse i x) := by
  interval_cases i
  · exact (h.rotDiff (n := 9) (by omega)).xor_rotations (m := 19) (by omega) (by omega)
  · exact (h.rotDiff_two_mul (n := 21) (by omega)).xor_rotations (m := 61) (by omega) (by omega)
  · exact (h.rotDiff (n := 5) (by omega)).xor_rotations (m := 1) (by omega) (by omega)
  · exact (h.rotDiff (n := 7) (by omega)).xor_rotations (m := 10) (by omega) (by omega)
  · exact (h.rotDiff_two_mul (n := 17) (by omega)).xor_rotations (m := 7) (by omega) (by omega)

/-- The factors that `n` rounds add to the lane that ends in word `i`. -/
def isapRoundsFactors : Nat → Nat → Nat
  | 0, _ => 0
  | n + 1, i => isapRoundsFactors n ((i + 1) % 5) + isapFactors i

/-- Forty-six rounds suffice for every word: nine times 1 + 2 + 1 + 1 + 2 factors, and one more (R127). -/
theorem le_isapRoundsFactors {n : Nat} (hn : 46 ≤ n) : ∀ i < 5, 64 ≤ isapRoundsFactors n i := by
  induction n, hn using Nat.le_induction with
  | base => decide
  | succ n _ ih => exact fun i _ => Nat.le_add_right_of_le (ih ((i + 1) % 5) (Nat.mod_lt _ (by omega)))

/-- A round diffuses the difference of two banks; the constant cancels (R125 to R127). -/
theorem isapRound_word_xor (k : Word) (a b : Bank) {i : Nat} (h : i < 5) :
    (isapRound k a).word i ^^^ (isapRound k b).word i =
      isapDiffuse i (a.word ((i + 1) % 5) ^^^ b.word ((i + 1) % 5)) := by
  rw [isapRound_word_low k a h, isapRound_word_low k b h, ← isapDiffuse_xor, isapStepA_word, isapStepA_word]
  congr 1
  split_ifs with h2
  · rw [h2, BitVec.xor_comm (b.word 2), BitVec.xor_assoc, xor_cancel_left]
  · rfl

/-- After the rounds, every difference in words 0..4 holds their factors. -/
theorem isapRounds_word_xor (ks : List Word) (a b : Bank) {i : Nat} (h : i < 5) :
    RotMultiple (isapRoundsFactors ks.length i) ((isapRounds ks a).word i ^^^ (isapRounds ks b).word i) := by
  induction ks using List.reverseRecOn generalizing i with
  | nil => exact rotMultiple_zero _
  | append_singleton ks k ih =>
    have hlast (s : Bank) : isapRounds (ks ++ [k]) s = isapRound k (isapRounds ks s) := List.foldl_concat ..
    rw [hlast, hlast, isapRound_word_xor k _ _ h, List.length_append]
    exact (ih (Nat.mod_lt _ (by omega))).isapDiffuse h

/-- Settles O34: a difference that holds sixty-four factors is 0. -/
theorem fortySixIsapRoundsForgetTheState : Obligations.FortySixIsapRoundsForgetTheState := by
  intro ks a b hlen i hi
  exact BitVec.xor_eq_zero_iff.1 ((isapRounds_word_xor ks a b hi).eq_zero (le_isapRoundsFactors hlen i hi))

end Sys2Proof.Machine
end

section
/-!
The Elephant steps (O35, O36), the round constants (O37), PERMUTE (O16) and `wbytes` (O30): spec/40_permutation.md R121
to R124, R128 to R136.
-/

namespace Sys2Proof.Machine

/-! ## Elephant steps, lane by lane -/

/-- θ adds to a lane the mix of the columns beside it (R129). -/
theorem theta_word_lane (a : Bank) {x y : Nat} (hx : x < 5) (hy : y < 5) :
    (theta a).word (x + 5 * y) = a.word (x + 5 * y) ^^^ thetaD a x := by
  have hlane := theta_word a _ (laneIdx_lt x y hx hy)
  rwa [laneIdx_mod x y hx] at hlane

/-- χ combines a lane with the two that follow it in its row (R131). -/
theorem chi_word_lane (a : Bank) {x y : Nat} (hx : x < 5) (hy : y < 5) :
    (chi a).word (x + 5 * y) =
      a.word (x + 5 * y) ^^^ (~~~(a.word ((x + 1) % 5 + 5 * y)) &&& a.word ((x + 2) % 5 + 5 * y)) := by
  have hlane := chi_word a _ (laneIdx_lt x y hx hy)
  rwa [laneIdx_mod x y hx, laneIdx_div x y hx] at hlane

/-- Settles O35. -/
theorem elephantStepsLaneByLane : Obligations.ElephantStepsLaneByLane := by
  intro a k x y hx hy
  refine ⟨fun col d hcol hd => ?_, chi_word_lane a hx hy, iota_word k a, fun _ => rfl⟩
  have hparity (z : Nat) : col (z % 5) = thetaC a (z % 5) := hcol _ (Nat.mod_lt _ (by omega))
  rw [theta_word_lane a hx hy, hd x hx, hparity, hparity, thetaD]

/-! ## ρ/π -/

theorem rhoAmount_eq {x y : Nat} (hx : x < 5) (hy : y < 5) : rhoAmount x y = x + 2 * y :=
  Nat.mod_eq_of_lt (by omega)

/-- A gather reads lane `src(x, y)` into lane (x, y), and rotates by the amount of either (R130). -/
theorem rhoPi_word_gather (a : Bank) {x y : Nat} (hx : x < 5) (hy : y < 5) :
    (rhoPi .gd a).word (laneIdx x y) = rotl (a.word (piSource x y)) (rhoAmount x y) ∧
    (rhoPi .gs a).word (laneIdx x y) = rotl (a.word (piSource x y)) (rhoAmount ((x + 3 * y) % 5) x) := by
  have hmod : (x + 3 * y) % 5 < 5 := Nat.mod_lt _ (by omega)
  have hlane := laneIdx_lt x y hx hy
  rw [rhoPi_word _ a _ hlane, rhoPi_word _ a _ hlane]
  simp [rhoPiLane, hx, piSource, hmod]

/-- A scatter sends lane (x, y) to lane `src(x, y)`, and rotates by the amount of either (R130). -/
theorem rhoPi_word_scatter (a : Bank) {x y : Nat} (hx : x < 5) (hy : y < 5) :
    (rhoPi .ss a).word (piSource x y) = rotl (a.word (laneIdx x y)) (rhoAmount x y) ∧
    (rhoPi .sd a).word (piSource x y) = rotl (a.word (laneIdx x y)) (rhoAmount ((x + 3 * y) % 5) x) := by
  have hmod : (x + 3 * y) % 5 < 5 := Nat.mod_lt _ (by omega)
  have hlane := piSource_lt x y hx
  rw [rhoPi_word _ a _ hlane, rhoPi_word _ a _ hlane]
  simp only [rhoPiLane, piSourceInv_piSource x y hx hy, laneIdx_mod x y hx, laneIdx_div x y hx]
  simp [piSource, hmod]

/-- `src` sends no two lanes to one: the scatter's map takes its value back (R130). -/
theorem piSource_injective {x y x' y' : Nat} (hx : x < 5) (hy : y < 5) (hx' : x' < 5) (hy' : y' < 5)
    (h : piSource x y = piSource x' y') : x = x' ∧ y = y' := by
  have hlane : laneIdx x y = laneIdx x' y' := by
    rw [← piSourceInv_piSource x y hx hy, h, piSourceInv_piSource x' y' hx' hy']
  unfold laneIdx at hlane
  omega

/-- `src` fixes lane (0, 0) and no other (R130). -/
theorem piSource_eq_laneIdx_iff {x y : Nat} (hx : x < 5) (hy : y < 5) :
    piSource x y = laneIdx x y ↔ x = 0 ∧ y = 0 := by
  unfold piSource laneIdx
  omega

/-- Lane (0, 0) is neither moved nor rotated, under every reading (R130). -/
theorem rhoPi_word_zero (v : PiRhoVariant) (a : Bank) : (rhoPi v a).word 0 = a.word 0 := by
  rw [rhoPi_word v a 0 (by omega)]
  cases v <;> exact rotl_zero _

/-- Settles O36. -/
theorem rhoPiUnderItsFourReadings : Obligations.RhoPiUnderItsFourReadings := by
  intro a x y hx hy
  obtain ⟨hgd, hgs⟩ := rhoPi_word_gather a hx hy
  obtain ⟨hss, hsd⟩ := rhoPi_word_scatter a hx hy
  rw [rhoAmount_eq hx hy] at hgd hss
  rw [rhoAmount_eq (Nat.mod_lt _ (by omega)) hx] at hgs hsd
  exact ⟨hgd, hgs, hss, hsd, piSource_eq_laneIdx_iff hx hy, fun x' y' hx' hy' => piSource_injective hx hy hx' hy',
    by omega, fun v => rhoPi_word_zero v a⟩

/-! ## Round constants and the order of the rounds -/

theorem rcIndex_twelve (c : Params) {r : Nat} : rcIndex c r 12 = r := by
  unfold rcIndex
  split <;> simp

/-- A loop over rounds 0 to n-1 ends at the last of any sequence that follows the rounds. -/
theorem foldl_range_eq_of_follows {α : Type} (round : Nat → α → α) (f : Nat → α) (n : Nat)
    (h : ∀ k < n, f (k + 1) = round k (f k)) : (List.range n).foldl (fun s r => round r s) (f 0) = f n := by
  induction n with
  | zero => rfl
  | succ n ih =>
    rw [List.range_succ, List.foldl_concat, ih fun k hk => h k (Nat.lt_succ_of_lt hk), h n (Nat.lt_succ_self n)]

/-- Settles O37. -/
theorem roundConstantIndex : Obligations.RoundConstantIndex := by
  intro c m r n ci ce hci hce _ hn hr
  refine ⟨rfl, rfl, Nat.le_of_lt_succ (rcIndex_lt c r n hr hn), rcIndex_twelve c, fun a => ?_, fun a => ?_,
    fun f hf => ⟨?_, rfl⟩, fun f hf => ⟨?_, rfl⟩⟩
  · simp only [elephantPerm, rcIndex_twelve]
  · simp only [isapPerm, rcIndex_twelve]
  · refine foldl_range_eq_of_follows _ f n fun k hk => ?_
    rw [hf k hk, hce _ (rcIndex_lt c k n hk hn), rcElephant]
  · refine foldl_range_eq_of_follows _ f n fun k hk => ?_
    rw [hf k hk, hci _ (rcIndex_lt c k n hk hn), rcIsap]

/-! ## PERMUTE -/

/-- Every PERMUTE the encoding admits passes its pre-checks: it checks no length and no region (R136). -/
theorem preCheck_permute (c : Params) (sch : Scheme) (bank : BankSel) {rnd : BitVec 4} (h : rnd.toNat ≤ 12)
    (s : State) : preCheck c (.permute sch bank rnd) s = .none := by
  simp [preCheck, Instr.wellFormed, lengthsOk, checkedRegions, h]

/-- PERMUTE sets the named bank to its permutation and completes (R136). -/
theorem exec_permute (sch : Scheme) (bank : BankSel) {rnd : BitVec 4} (h : rnd.toNat ≤ 12) (s : State) :
    exec (.permute sch bank rnd) s =
      .next (s.setBank bank (perm Config.params sch rnd.toNat (s.bank bank))).finish := by
  rw [exec_eq, commandAt_of_pass _ _ s (preCheck_permute _ sch bank h s), commandBody]

/-- Settles O16. -/
theorem permuteChangesTheNamedBankOnly : Obligations.PermuteChangesTheNamedBankOnly := fun _ s h =>
  ⟨exec_permute .elephant .a h s, exec_permute .elephant .b h s, exec_permute .isap .a h s, exec_permute .isap .b h s⟩

/-! ## Bytes of a word -/

/-- One word from the image of a word is that word (R121). -/
theorem words_wbytes_one (w : Word) : words (wbytes w) 1 = [w] := by
  have hword : wordOf (wbytes w) 0 = w := by
    apply byteAt_ext
    intro k hk
    rw [wordOf, byteAt_packWord _ k hk, Nat.mul_zero, Nat.zero_add, wbytes_getD w k hk]
  exact congrArg (fun v => [v]) hword

/-- Settles O30. -/
theorem wbytesIsTheInverseOfWords : Obligations.WbytesIsTheInverseOfWords := fun w =>
  ⟨length_wbytes w, fun k hk => wbytes_getD w k hk, words_wbytes_one w, by decide⟩

end Sys2Proof.Machine
end

section
/-!
The rate window and the block split (O38): spec/41_duplex.md R160 to R162. Every word of the window is known by its
eight bytes; a chunk under either alignment is a run of them that begins at `windowPos al n 0`.
-/

namespace Sys2Proof.Machine

/-! ## Words of a string -/

theorem packWord_congr {f g : Nat → Byte} (h : ∀ k < 8, f k = g k) : packWord f = packWord g := by
  simp [packWord, h]

theorem byteAt_wordOf (b : List Byte) (j : Nat) {k : Nat} (h : k < 8) : byteAt (wordOf b j) k = b.getD (8 * j + k) 0 :=
  byteAt_packWord _ k h

@[simp] theorem byteAt_zero (k : Nat) : byteAt 0 k = 0 := by simp [byteAt]

/-- A word that lies in the first of two strings. -/
theorem wordOf_append_left (x y : List Byte) {j : Nat} (h : 8 * j + 8 ≤ x.length) :
    wordOf (x ++ y) j = wordOf x j :=
  packWord_congr fun k hk => List.getD_append _ _ _ _ (by omega)

/-- A word that lies in the second of two strings, the first being whole words. -/
theorem wordOf_append_right {x : List Byte} {n : Nat} (hx : x.length = 8 * n) (y : List Byte) (j : Nat) :
    wordOf (x ++ y) (n + j) = wordOf y j := by
  refine packWord_congr fun k hk => ?_
  rw [List.getD_append_right _ _ _ _ (by omega)]
  congr 1
  omega

/-- Past its end a string is zero-padded (R120). -/
theorem wordOf_of_length_le {b : List Byte} {j : Nat} (h : b.length ≤ 8 * j) : wordOf b j = 0 := by
  apply byteAt_ext
  intro k hk
  rw [byteAt_wordOf b j hk, List.getD_eq_default _ _ (by omega), byteAt_zero]

/-! ## Chunks of the rate window -/

/-- A chunk takes consecutive positions of the window (R160). -/
theorem windowPos_eq_add (al : PartialAlign) (n j : Nat) : windowPos al n j = windowPos al n 0 + j := by
  cases al <;> simp [windowPos]

/-- A chunk of at most eight bytes ends inside the window. -/
theorem windowPos_zero_add_le (al : PartialAlign) {n : Nat} (h : n ≤ 8) : windowPos al n 0 + n ≤ 8 := by
  cases al <;> simp only [windowPos] <;> omega

theorem byteAt_or (v w : Word) (k : Nat) : byteAt (v ||| w) k = byteAt v k ||| byteAt w k := by
  ext i hi
  simp [byteAt]

/-- A byte put at a window position is that byte of the word, and the others are zero (R161). -/
theorem byteAt_atWindow (b : Byte) {pos k : Nat} (hpos : pos < 8) (hk : k < 8) :
    byteAt (atWindow b pos) k = if k = pos then b else 0 := by
  ext i hi
  simp only [byteAt, atWindow, BitVec.getElem_extractLsb', BitVec.getLsbD_shiftLeft, BitVec.getLsbD_setWidth]
  by_cases h : k = pos
  · subst h
    have hplace : 56 - 8 * k + i < 64 := by omega
    have hbit : i < 64 := by omega
    simp [hplace, hbit, BitVec.getLsbD_eq_getElem hi]
  · rcases Nat.lt_or_gt_of_ne h with hlt | hgt
    · have hhigh : 8 ≤ 56 - 8 * k + i - (56 - 8 * pos) := by omega
      simp [h, BitVec.getLsbD_of_ge b _ hhigh]
    · have hlow : 56 - 8 * k + i < 56 - 8 * pos := by omega
      simp [h, hlow]

/-- Bytes put at consecutive positions of the window, one by one. -/
theorem byteAt_foldl_atWindow (f : Nat → Byte) {p n k : Nat} (hfit : p + n ≤ 8) (hk : k < 8) :
    byteAt ((List.range n).foldl (fun w j => w ||| atWindow (f j) (p + j)) 0) k =
      if p ≤ k ∧ k < p + n then f (k - p) else 0 := by
  induction n with
  | zero => rw [if_neg (by omega)]; exact byteAt_zero k
  | succ n ih =>
    rw [List.range_succ, List.foldl_concat, byteAt_or, ih (by omega), byteAt_atWindow _ (by omega) hk]
    by_cases hlast : k = p + n
    · subst hlast
      simp
    · rw [if_neg hlast]
      exact BitVec.or_zero.trans (if_congr (by omega) rfl rfl)

theorem place_eq_foldl (al : PartialAlign) (blk : List Byte) :
    place al blk = (List.range blk.length).foldl
      (fun w j => w ||| atWindow (blk.getD j 0) (windowPos al blk.length 0 + j)) 0 := by
  unfold place
  congr
  funext w j
  rw [windowPos_eq_add]

/-- The bytes of a chunk as a word: zero before the chunk's first position, then the chunk, zero-padded (R160, R161). -/
theorem byteAt_place (al : PartialAlign) {blk : List Byte} (hlen : blk.length ≤ 8) {k : Nat} (hk : k < 8) :
    byteAt (place al blk) k =
      if k < windowPos al blk.length 0 then 0 else blk.getD (k - windowPos al blk.length 0) 0 := by
  rw [place_eq_foldl, byteAt_foldl_atWindow _ (windowPos_zero_add_le al hlen) hk]
  by_cases hbefore : k < windowPos al blk.length 0
  · rw [if_neg (by omega), if_pos hbefore]
  · rw [if_neg hbefore]
    by_cases hin : k < windowPos al blk.length 0 + blk.length
    · rw [if_pos (by omega)]
    · rw [if_neg (by omega), List.getD_eq_default _ _ (by omega)]

theorem byteAt_place_windowPos (al : PartialAlign) {blk : List Byte} (hlen : blk.length ≤ 8) {j : Nat}
    (hj : j < blk.length) : byteAt (place al blk) (windowPos al blk.length j) = blk.getD j 0 := by
  have hfit := windowPos_zero_add_le al hlen
  rw [windowPos_eq_add, byteAt_place al hlen (by omega), if_neg (by omega), Nat.add_sub_cancel_left]

/-- MSB: the StateCodec's word of the chunk, padded behind (R161). -/
theorem place_msb {blk : List Byte} (hlen : blk.length ≤ 8) : place .msb blk = wordOf blk 0 := by
  have hstart : windowPos .msb blk.length 0 = 0 := rfl
  apply byteAt_ext
  intro k hk
  rw [byteAt_place .msb hlen hk, byteAt_wordOf blk 0 hk, hstart, if_neg (Nat.not_lt_zero k), Nat.sub_zero,
    Nat.mul_zero, Nat.zero_add]

/-- LSB: the StateCodec's word of the chunk, padded in front (R161). -/
theorem place_lsb {blk : List Byte} (hlen : blk.length ≤ 8) :
    place .lsb blk = wordOf (List.replicate (8 - blk.length) 0 ++ blk) 0 := by
  have hstart : windowPos .lsb blk.length 0 = 8 - blk.length := rfl
  apply byteAt_ext
  intro k hk
  rw [byteAt_place .lsb hlen hk, byteAt_wordOf _ 0 hk, hstart, Nat.mul_zero, Nat.zero_add]
  split_ifs with hpad
  · rw [List.getD_append _ _ _ _ (by simpa using hpad), List.getD_replicate _ hpad]
  · rw [List.getD_append_right _ _ _ _ (by simpa using hpad), List.length_replicate]

theorem words_one (b : List Byte) : words b 1 = [wordOf b 0] := rfl

theorem keystream_msb (a : Bank) {n : Nat} (h : n ≤ 8) : keystream .msb a n = (wbytes (a.word 0)).take n := by
  rw [wbytes, ← List.map_take, List.take_range, min_eq_left h]
  rfl

theorem keystream_lsb (a : Bank) {n : Nat} (h : n ≤ 8) : keystream .lsb a n = (wbytes (a.word 0)).drop (8 - n) := by
  apply List.ext_getElem
  · simp
    omega
  · intro j hj _
    simp [keystream, wbytes, windowPos]

/-- A full read is the image of word 0 under either alignment (R160). -/
theorem keystream_eight (al : PartialAlign) (a : Bank) : keystream al a 8 = wbytes (a.word 0) := by
  simp [keystream, wbytes, windowPos_eight]

theorem dmark_msb (d : Byte) {n : Nat} (h : 0 < n) : dmark .msb d n = d.setWidth 64 <<< (64 - 8 * n) := by
  have hpos : 56 - 8 * (n - 1) = 64 - 8 * n := by omega
  simp [dmark, atWindow, windowPos, hpos]

theorem dmark_lsb (d : Byte) {n : Nat} (h : 0 < n) (h8 : n ≤ 8) : dmark .lsb d n = d.setWidth 64 := by
  have hpos : 56 - 8 * (8 - n + (n - 1)) = 0 := by omega
  simp [dmark, atWindow, windowPos, hpos]

theorem dmark_eight (al : PartialAlign) (d : Byte) : dmark al d 8 = d.setWidth 64 := by
  simp [dmark, atWindow, windowPos_eight]

/-- The domain byte 0 marks nothing. -/
@[simp] theorem dmark_zero (al : PartialAlign) (n : Nat) : dmark al 0 n = 0 := by simp [dmark, atWindow]

/-- A full block does not depend on the alignment (R160). -/
theorem place_eq_msb_of_length_eight (al : PartialAlign) {blk : List Byte} (h : blk.length = 8) :
    place al blk = place .msb blk := by
  simp only [place, h, windowPos_eight]

/-- After the feedback XOR the window holds the ciphertext bytes (R166). -/
theorem keystream_xorWord0_place (al : PartialAlign) (a : Bank) {blk : List Byte} (hlen : blk.length ≤ 8) :
    keystream al (a.xorWord0 (place al blk)) blk.length = xorBytes blk (keystream al a blk.length) := by
  apply List.ext_getElem
  · simp
  · intro j hj _
    have hj : j < blk.length := by simpa using hj
    have hbyte : byteAt (place al blk) (windowPos al blk.length j) = blk[j] :=
      (byteAt_place_windowPos al hlen hj).trans (List.getD_eq_getElem _ _ hj)
    simp [keystream, xorBytes, byteAt_xor, hbyte, BitVec.xor_comm]

/-- Settles O38. -/
theorem rateWindowOfAChunk : Obligations.RateWindowOfAChunk := by
  intro al a d blk hpos hlen
  refine ⟨?_, ?_, keystream_msb a hlen, keystream_lsb a hlen, dmark_msb d hpos, dmark_lsb d hpos hlen,
    fun hfull => ⟨place_eq_msb_of_length_eight al hfull, keystream_eight al a, dmark_eight al d⟩,
    keystream_xorWord0_place al a hlen⟩
  · rw [words_one, place_msb hlen]
  · rw [words_one, place_lsb hlen]

end Sys2Proof.Machine
end

section
/-!
The duplex functions block by block (O18, O20, O21, O39, O40): spec/41_duplex.md R162 to R167. A string is a first block
and the rest of it; each function is an equation over that split, and the inverse is an induction along it.
-/

namespace Sys2Proof.Machine

/-! ## The initial bank -/

/-- The suffix string after the nonce: the byte 0x02 when SFX is set (R163). -/
def suffixBytes (sfx : Bool) : List Byte := if sfx then [0x02] else []

theorem length_suffixBytes_le (sfx : Bool) : (suffixBytes sfx).length ≤ 8 := by cases sfx <;> decide

/-- The suffix byte stands in bits 63:56 of its word (R163). -/
theorem wordOf_suffixBytes (sfx : Bool) :
    wordOf (suffixBytes sfx) 0 = if sfx then 0x0200000000000000 else 0 := by cases sfx <;> decide

theorem initBank_eq (c : Params) (sch : Scheme) (key nonce : List Byte) (sfx : Bool) :
    initBank c sch key nonce sfx = perm c sch (fullRounds sch) (Bank.load (key ++ (nonce ++ suffixBytes sfx))) := by
  rw [← List.append_assoc]
  rfl

section
variable {key nonce : List Byte} {n : Nat} (hkey : key.length = 16) (hnonce : nonce.length = 8 * n) (hn : n ≤ 2)
  (sfx : Bool)
include hkey

/-- Words 0 and 1 hold the key (R163). -/
theorem load_key_word {j : Nat} (hj : j < 2) :
    (Bank.load (key ++ (nonce ++ suffixBytes sfx))).word j = wordOf key j := by
  rw [Bank.word_load _ _ (by omega), wordOf_append_left _ _ (by omega)]

include hnonce

/-- The words after the suffix are zero (R163). -/
theorem load_word_of_le {i : Nat} (hi : 3 + n ≤ i) :
    (Bank.load (key ++ (nonce ++ suffixBytes sfx))).word i = 0 := by
  by_cases h : i < 25
  · have hsuffix := length_suffixBytes_le sfx
    rw [Bank.word_load _ _ h, wordOf_of_length_le]
    simp only [List.length_append]
    omega
  · exact Bank.word_of_le _ _ (by omega)

include hn

/-- The nonce begins at word 2 (R163). -/
theorem load_nonce_word {j : Nat} (hj : j < n) :
    (Bank.load (key ++ (nonce ++ suffixBytes sfx))).word (2 + j) = wordOf nonce j := by
  rw [Bank.word_load _ _ (by omega), wordOf_append_right (n := 2) hkey, wordOf_append_left _ _ (by omega)]

/-- The suffix is alone in the word after the nonce (R163). -/
theorem load_suffix_word :
    (Bank.load (key ++ (nonce ++ suffixBytes sfx))).word (2 + n) = if sfx then 0x0200000000000000 else 0 := by
  rw [Bank.word_load _ _ (by omega), wordOf_append_right (n := 2) hkey, ← wordOf_suffixBytes]
  exact wordOf_append_right hnonce _ 0

end

/-- Settles O18: the nonce takes one word for Elephant and two for ISAP. -/
theorem initialBankHoldsKeyNonceAndSuffix : Obligations.InitialBankHoldsKeyNonceAndSuffix := by
  intro c key nonce sfx hkey
  have firstWord (b : List Byte) : wordOf b 0 = packWord (fun k => b.getD k 0) := by simp [wordOf]
  refine ⟨fun hnonce => ⟨_, initBank_eq c .elephant key nonce sfx, ?_, ?_, ?_, ?_, ?_⟩,
    fun hnonce => ⟨_, initBank_eq c .isap key nonce sfx, ?_, ?_, ?_, ?_, ?_, ?_⟩⟩
  · rw [load_key_word hkey sfx (by omega), firstWord]
  · exact load_key_word hkey sfx (by omega)
  · exact (load_nonce_word hkey (n := 1) hnonce (by omega) sfx (j := 0) (by omega)).trans (firstWord nonce)
  · exact load_suffix_word hkey (n := 1) hnonce (by omega) sfx
  · exact fun i hi => load_word_of_le hkey (n := 1) hnonce sfx hi
  · rw [load_key_word hkey sfx (by omega), firstWord]
  · exact load_key_word hkey sfx (by omega)
  · exact (load_nonce_word hkey (n := 2) hnonce (by omega) sfx (j := 0) (by omega)).trans (firstWord nonce)
  · exact load_nonce_word hkey (n := 2) hnonce (by omega) sfx (j := 1) (by omega)
  · exact load_suffix_word hkey (n := 2) hnonce (by omega) sfx
  · exact fun i hi => load_word_of_le hkey (n := 2) hnonce sfx hi

/-! ## The first block of a string -/

/-- `blk` is the first block of the string `blk ++ rest`: only the last block may be shorter than eight bytes (R162). -/
structure FirstBlock (blk rest : List Byte) : Prop where
  pos : 0 < blk.length
  le_eight : blk.length ≤ 8
  full : rest ≠ [] → blk.length = 8

/-- The block split takes the first block off (R162). -/
theorem FirstBlock.blocks_append {blk rest : List Byte} (h : FirstBlock blk rest) :
    blocks (blk ++ rest) = blk :: blocks rest := by
  have hne : blk ++ rest ≠ [] := List.append_ne_nil_of_left_ne_nil (List.ne_nil_of_length_pos h.pos) rest
  rw [blocks_cons _ hne]
  by_cases hrest : rest = []
  · subst hrest
    rw [List.append_nil, List.take_of_length_le h.le_eight, List.drop_eq_nil_of_le h.le_eight]
  · rw [← h.full hrest, List.take_left, List.drop_left]

theorem firstBlock_take_drop {data : List Byte} (h : data ≠ []) : FirstBlock (data.take 8) (data.drop 8) where
  pos := by
    have hlen := List.length_pos_iff.2 h
    simp only [List.length_take]
    omega
  le_eight := List.length_take_le 8 data
  full := fun hrest => by
    have hlen := List.length_pos_iff.2 hrest
    simp only [List.length_drop] at hlen
    simp only [List.length_take]
    omega

/-- Induction over a string along its blocks (R162). -/
theorem block_induction {motive : List Byte → Prop} (nil : motive [])
    (block : ∀ blk rest, FirstBlock blk rest → motive rest → motive (blk ++ rest)) (data : List Byte) :
    motive data := by
  induction hlen : data.length using Nat.strong_induction_on generalizing data with
  | _ len ih =>
    by_cases h : data = []
    · exact h ▸ nil
    · have hpos := List.length_pos_iff.2 h
      rw [← List.take_append_drop 8 data]
      exact block _ _ (firstBlock_take_drop h) (ih _ (by simp; omega) _ rfl)

/-- Whole blocks in front of a string are split by themselves (R162). -/
theorem blocks_append {x : List Byte} (h : 8 ∣ x.length) (y : List Byte) : blocks (x ++ y) = blocks x ++ blocks y := by
  induction x using block_induction with
  | nil => rfl
  | block blk rest hfirst ih =>
    have hblk : blk.length = 8 := by
      have hpos := hfirst.pos
      have hle := hfirst.le_eight
      by_cases hrest : rest = []
      · subst hrest
        simp only [List.append_nil] at h
        omega
      · exact hfirst.full hrest
    have hwhole : FirstBlock blk (rest ++ y) := ⟨hfirst.pos, hfirst.le_eight, fun _ => hblk⟩
    have hdvd : 8 ∣ rest.length := by
      rw [List.length_append] at h
      omega
    rw [List.append_assoc, hwhole.blocks_append, hfirst.blocks_append, ih hdvd, List.cons_append]

/-! ## `absorb` -/

@[simp] theorem Bank.xorWord0_zero (a : Bank) : a.xorWord0 0 = a := by
  apply Bank.ext
  intro i _
  by_cases h : i = 0 <;> simp [h]

/-- Blocks absorbed in front of others are absorbed with the domain byte 0, which marks nothing (R164). -/
theorem absorbBlocks_append (c : Params) (sch : Scheme) (d : Byte) (front : List (List Byte)) {back : List (List Byte)}
    (hback : back ≠ []) (a : Bank) :
    absorbBlocks c sch d (front ++ back) a = absorbBlocks c sch d back (absorbBlocks c sch 0 front a) := by
  induction front generalizing a with
  | nil => rfl
  | cons blk front ih =>
    have hmore : (front ++ back).isEmpty = false := List.isEmpty_eq_false_iff.2 (by simp [hback])
    simp only [List.cons_append, absorbBlocks, hmore, Bool.false_eq_true, if_false, ih, dmark_zero, Bank.xorWord0_zero,
      ite_self]

/-- The only block of a string is absorbed with the domain mark (R164). -/
theorem absorb_block (c : Params) (sch : Scheme) (a : Bank) (d : Byte) {blk : List Byte} (hpos : 0 < blk.length)
    (hlen : blk.length ≤ 8) :
    absorb c sch a blk d =
      permReduced c sch (a.xorWord0 (place c.partialAlign blk ^^^ dmark c.partialAlign d blk.length)) := by
  have honly : FirstBlock blk [] := ⟨hpos, hlen, fun h => absurd rfl h⟩
  have hblocks : blocks blk = [blk] := by simpa using honly.blocks_append
  rw [absorb, hblocks, ← Bank.xorWord0_xorWord0]
  rfl

/-- A string is absorbed part by part, and only its last part is marked (R164). -/
theorem absorb_append (c : Params) (sch : Scheme) (a : Bank) (d : Byte) {x y : List Byte} (hx : 8 ∣ x.length)
    (hy : y ≠ []) : absorb c sch a (x ++ y) d = absorb c sch (absorb c sch a x 0) y d := by
  have hback : blocks y ≠ [] := by simp [blocks_cons y hy]
  rw [absorb, blocks_append hx, absorbBlocks_append c sch d _ hback]
  rfl

/-- Settles O20. -/
theorem absorbMarksTheLastBlockOnly : Obligations.AbsorbMarksTheLastBlockOnly := by
  intro c sch a d
  refine ⟨rfl, fun blk hpos hlen => ?_, fun x y hx hy => absorb_append c sch a d hx hy⟩
  rw [absorb_block c sch a d hpos hlen, Bank.xorWord0, BitVec.xor_assoc]

/-! ## `squeeze` -/

/-- Up to eight bytes are one read, or none, and no permutation (R165). -/
theorem squeeze_of_le_eight (c : Params) (sch : Scheme) (a : Bank) {len : Nat} (h : len ≤ 8) :
    squeeze c sch a len = (a, keystream c.partialAlign a len) := by
  rcases Nat.eq_zero_or_pos len with rfl | hpos
  · rfl
  · rw [squeeze, nb_le_one len h hpos, squeezeReads, if_pos h, min_eq_right h]

/-- More than eight bytes are a full read, a permutation, and the squeeze of the rest (R165). -/
theorem squeeze_of_gt_eight (c : Params) (sch : Scheme) (a : Bank) {len : Nat} (h : 8 < len) :
    squeeze c sch a len =
      ((squeeze c sch (permReduced c sch a) (len - 8)).1,
        wbytes (a.word 0) ++ (squeeze c sch (permReduced c sch a) (len - 8)).2) := by
  have hreads : nb len = nb (len - 8) + 1 := by rw [← nb_add_eight, Nat.sub_add_cancel h.le]
  rw [squeeze, hreads, squeezeReads, if_neg (by omega), min_eq_left h.le, keystream_eight]
  rfl

/-- Settles O21. -/
theorem squeezePermutesBetweenReadsOnly : Obligations.SqueezePermutesBetweenReadsOnly := fun c sch a len =>
  ⟨length_squeeze c sch a len, squeeze_of_le_eight c sch a, squeeze_of_gt_eight c sch a⟩

/-! ## `duplexEnc` and `duplexDec` -/

/-- The lock-step bank after a block: fed the same word exactly when the lock-step bit is set (R166, R167). -/
def feedOther (c : Params) (sch : Scheme) (lock : Bool) (fb : Word) (b : Bank) : Bank :=
  if lock then feed c sch fb b else b

@[simp] theorem duplexEnc_nil (c : Params) (sch : Scheme) (a b : Bank) (lock : Bool) :
    duplexEnc c sch a [] lock b = ⟨a, b, []⟩ := rfl

@[simp] theorem duplexDec_nil (c : Params) (sch : Scheme) (a b : Bank) (lock : Bool) :
    duplexDec c sch a [] lock b = ⟨a, b, []⟩ := rfl

/-- Encryption takes one block, feeds it back, and goes on with the rest (R166). -/
theorem FirstBlock.duplexEnc_append {blk rest : List Byte} (h : FirstBlock blk rest) (c : Params) (sch : Scheme)
    (a b : Bank) (lock : Bool) {r : DuplexResult}
    (hr : r = duplexEnc c sch (feed c sch (place c.partialAlign blk) a) rest lock
      (feedOther c sch lock (place c.partialAlign blk) b)) :
    duplexEnc c sch a (blk ++ rest) lock b =
      ⟨r.bank, r.other, xorBytes blk (keystream c.partialAlign a blk.length) ++ r.out⟩ := by
  rw [hr, duplexEnc, h.blocks_append]
  rfl

/-- Decryption takes one block, feeds the recovered plaintext back, and goes on with the rest (R167). -/
theorem FirstBlock.duplexDec_append {blk rest : List Byte} (h : FirstBlock blk rest) (c : Params) (sch : Scheme)
    (a b : Bank) (lock : Bool) {p : List Byte} (hp : p = xorBytes blk (keystream c.partialAlign a blk.length))
    {q : DuplexResult}
    (hq : q = duplexDec c sch (feed c sch (place c.partialAlign p) a) rest lock
      (feedOther c sch lock (place c.partialAlign p) b)) :
    duplexDec c sch a (blk ++ rest) lock b = ⟨q.bank, q.other, p ++ q.out⟩ := by
  rw [hq, hp, duplexDec, h.blocks_append]
  rfl

/-- Settles O39. -/
theorem duplexFeedsThePlaintextBack : Obligations.DuplexFeedsThePlaintextBack := by
  intro c sch a b lock blk rest p r q hpos hlen hfull hp hr hq
  have hfirst : FirstBlock blk rest := ⟨hpos, hlen, hfull⟩
  refine ⟨duplexEnc_nil c sch a b lock, duplexDec_nil c sch a b lock, ?_, hfirst.duplexDec_append c sch a b lock hp hq⟩
  rw [hp]
  exact hfirst.duplexEnc_append c sch a b lock hr

/-- Decryption takes back what encryption did, block by block: XOR with the same keystream returns the plaintext block,
so both feed the same word back (R167). -/
theorem duplexDec_duplexEnc (c : Params) (sch : Scheme) (lock : Bool) (p : List Byte) (a b : Bank) :
    duplexDec c sch a (duplexEnc c sch a p lock b).out lock b =
      ⟨(duplexEnc c sch a p lock b).bank, (duplexEnc c sch a p lock b).other, p⟩ := by
  induction p using block_induction generalizing a b with
  | nil => simp
  | block blk rest hfirst ih =>
    rw [hfirst.duplexEnc_append c sch a b lock rfl]
    set ks := keystream c.partialAlign a blk.length with hks
    have hlen : (xorBytes blk ks).length = blk.length := by simp [hks]
    have hback : blk = xorBytes (xorBytes blk ks) (keystream c.partialAlign a (xorBytes blk ks).length) := by
      rw [hlen, ← hks, xorBytes_xorBytes blk ks (by simp [hks])]
    have hcipher : FirstBlock (xorBytes blk ks) (duplexEnc c sch (feed c sch (place c.partialAlign blk) a) rest lock
        (feedOther c sch lock (place c.partialAlign blk) b)).out := by
      refine ⟨hlen ▸ hfirst.pos, hlen ▸ hfirst.le_eight, fun hrest => hlen ▸ hfirst.full ?_⟩
      rw [← List.length_pos_iff, length_duplexEnc] at hrest
      exact List.ne_nil_of_length_pos hrest
    rw [hcipher.duplexDec_append c sch a b lock hback rfl, ih]

/-- Settles O40. -/
theorem duplexDecInvertsDuplexEnc : Obligations.DuplexDecInvertsDuplexEnc := by
  rintro c sch a b p lock r rfl
  exact ⟨length_duplexEnc c sch a b p lock, duplexDec_duplexEnc c sch lock p a b⟩

end Sys2Proof.Machine
end

section
/-!
The duplex commands (O17, O19, O22 to O26): spec/41_duplex.md R168 to R173. The pre-checks pass under the conditions of
R242 and R243, the body is the command's, and what a string write leaves in OBUF is the output region.
-/

namespace Sys2Proof.Machine

/-! ## Pre-checks that pass -/

/-- The pre-checks pass when the command is well formed, its lengths are right and no checked region overruns (R245). -/
theorem preCheck_eq_none {c : Params} {i : Instr} {s : State} (hwf : i.WellFormed) (hlengths : lengthsOk s i = true)
    (hregions : ∀ r ∈ checkedRegions s i, r.malformed c = false) : preCheck c i s = .none := by
  have hnone : (checkedRegions s i).any (Region.malformed c) = false :=
    List.any_eq_false.2 fun r hr => Bool.eq_false_iff.1 (hregions r hr)
  simp [preCheck, hwf, hlengths, hnone]

/-- A region that fits is not malformed (R243). -/
theorem Region.malformed_of_fits {c : Params} {off len : BitVec 16} (h : Fits c off len) :
    Region.malformed c ⟨off.toNat, len.toNat⟩ = false := by
  simp only [Region.malformed, Bool.and_eq_false_iff, decide_eq_false_iff_not, not_lt]
  rcases h with rfl | h
  · exact .inl le_rfl
  · exact .inr h

theorem keyLenOk_of_declares {s : State} (h : s.DeclaresKey) (sch : Scheme) : s.keyLenOk sch = true := by
  cases sch <;> exact beq_iff_eq.2 h

theorem nonceLenOk_of_declares {s : State} {sch : Scheme} (h : s.DeclaresNonce sch) : s.nonceLenOk sch = true := by
  cases sch <;> exact beq_iff_eq.2 h

/-- A command whose pre-checks pass answers the state its execution leaves (R245). -/
theorem exec_of_pass {i : Instr} {s : State} (h : preCheck Config.params i s = .none) :
    exec i s = .next (commandBody Config.params i s) := by
  rw [exec_eq, commandAt_of_pass _ i s h]

/-! ## Strings in the buffers -/

/-- A buffer that holds a string in a region reads it there (R69). -/
theorem Memory.readBytes_of_holds {m : Memory} {off len : BitVec 16} {data : List Byte} (h : m.Holds off len data) :
    m.readBytes off.toNat len.toNat = data := by
  obtain ⟨hlen, hbytes⟩ := h
  apply List.ext_getElem
  · simp [hlen]
  · intro j _ hj
    rw [← List.getD_eq_getElem data 0 hj, hbytes j (hlen ▸ hj)]
    simp [Memory.readBytes]

theorem State.messageBytes_of_holds {s : State} {msg : List Byte} (h : s.ibuf.Holds s.moff s.mlen msg) :
    s.messageBytes = msg :=
  Memory.readBytes_of_holds h

/-- After a string write the written region reads the string and every other byte is kept (R69). -/
theorem Memory.writeBytes_region {m : Memory} (h : m.wf) (off : Nat) {n : Nat} {out : List Byte}
    (hlen : out.length = n) :
    (∀ j < n, (m.writeBytes off out).read (off + j) = out.getD j 0) ∧
    ∀ a, a < off ∨ off + n ≤ a → (m.writeBytes off out).read a = m.read a := by
  subst hlen
  refine ⟨fun j hj => ?_, fun a ha => Memory.read_writeBytes_outside m h off out a ha⟩
  rw [Memory.read_writeBytes m h, if_pos (by omega), Nat.add_sub_cancel_left]

/-! ## Banks along the updates of a command -/

/-- An update that writes neither bank keeps what is known of the selected one. -/
theorem State.bank_eq_of_kept {s t : State} {sel : BankSel} {v : Bank} (hs : s.bank sel = v) (ha : t.bankA = s.bankA)
    (hb : t.bankB = s.bankB) : t.bank sel = v := by
  subst hs
  cases sel
  · exact ha
  · exact hb

@[simp] theorem State.setDuplexBanks_bank (s : State) (bank : BankSel) (ls : Bool) (r : DuplexResult) :
    (s.setDuplexBanks bank ls r).bank bank = r.bank := by cases bank <;> cases ls <;> rfl

@[simp] theorem State.setDuplexBanks_bank_other (s : State) (bank : BankSel) (ls : Bool) (r : DuplexResult) :
    (s.setDuplexBanks bank ls r).bank bank.other = if ls then r.other else s.bank bank.other := by
  cases bank <;> cases ls <;> rfl

/-! ## INIT, COPY and ABSORB -/

/-- INIT sets the named bank to the initialised one and completes (R168). -/
theorem exec_init (sch : Scheme) (bank : BankSel) (sfx : Bool) {s : State} (hkey : s.DeclaresKey)
    (hnonce : s.DeclaresNonce sch) :
    exec (.init sch bank sfx) s =
      .next (s.setBank bank (initBank Config.params sch s.keyBytes (s.nonceBytes sch) sfx)).finish :=
  exec_of_pass (preCheck_eq_none rfl
    (by simp [lengthsOk, keyLenOk_of_declares hkey, nonceLenOk_of_declares hnonce]) nofun)

/-- Settles O17. -/
theorem initLoadsTheNamedBankOnly : Obligations.InitLoadsTheNamedBankOnly := fun sch sfx _ hkey hnonce =>
  ⟨exec_init sch .a sfx hkey hnonce, exec_init sch .b sfx hkey hnonce⟩

/-- COPY has nothing to check (R173). -/
theorem exec_copy (dst : BankSel) (s : State) : exec (.copy dst) s = .next (s.setBank dst (s.bank dst.other)).finish :=
  exec_of_pass (preCheck_eq_none rfl rfl nofun)

/-- Settles O26. -/
theorem copyMakesTheBanksEqual : Obligations.CopyMakesTheBanksEqual := fun s => ⟨exec_copy .a s, exec_copy .b s⟩

/-- The buffer ABSORB reads (R169). -/
def State.sourceBuffer (s : State) : AbsorbSource → Memory
  | .ibuf => s.ibuf
  | .obuf => s.obuf

theorem State.absorbBytes_of_holds {s : State} {src : AbsorbSource} {data : List Byte}
    (h : (s.sourceBuffer src).Holds s.moff s.mlen data) : s.absorbBytes src = data := by
  cases src <;> exact Memory.readBytes_of_holds h

/-- ABSORB absorbs the string its source holds into the named bank, and completes (R169). -/
theorem exec_absorb (sch : Scheme) (bank : BankSel) (src : AbsorbSource) (dom : Byte) {s : State} {data : List Byte}
    (hfits : Fits Config.params s.moff s.mlen) (hdata : (s.sourceBuffer src).Holds s.moff s.mlen data) :
    exec (.absorb sch bank src dom) s =
      .next (s.setBank bank (absorb Config.params sch (s.bank bank) data dom)).finish := by
  rw [← State.absorbBytes_of_holds hdata]
  refine exec_of_pass (preCheck_eq_none rfl rfl fun r hr => ?_)
  obtain rfl := List.mem_singleton.1 hr
  exact Region.malformed_of_fits hfits

/-- Settles O19: the two sources hold the string in one sense. -/
theorem absorbChangesTheNamedBankOnly : Obligations.AbsorbChangesTheNamedBankOnly := by
  intro sch src dom s data hfits hlen hbytes
  have hdata : (s.sourceBuffer src).Holds s.moff s.mlen data := by
    refine ⟨hlen, fun j hj => (hbytes j hj).trans ?_⟩
    cases src <;> rfl
  exact ⟨exec_absorb sch .a src dom hfits hdata, exec_absorb sch .b src dom hfits hdata⟩

/-! ## SQUEEZE -/

/-- SQUEEZE checks the output region for OBUF only, then sets the bank and delivers the bytes (R170, R243). -/
theorem exec_squeeze (sch : Scheme) (bank : BankSel) (dest : SqueezeDest) {s : State}
    (hfits : dest = .obuf → Fits Config.params s.doff s.mlen) :
    exec (.squeeze sch bank dest) s =
      .next ((s.setBank bank (squeeze Config.params sch (s.bank bank) (squeezeLen s sch dest)).1).deliver dest
        (squeeze Config.params sch (s.bank bank) (squeezeLen s sch dest)).2).finish := by
  refine exec_of_pass (preCheck_eq_none rfl rfl ?_)
  cases dest with
  | obuf =>
    intro r hr
    obtain rfl := List.mem_singleton.1 hr
    exact Region.malformed_of_fits (hfits rfl)
  | tagout => nofun
  | texp => nofun

/-- The bank SQUEEZE names takes the squeezed one, the other is kept, wherever the bytes go (R170). -/
theorem State.squeezed_banks (s : State) (bank : BankSel) (v : Bank) (dest : SqueezeDest) (out : List Byte) :
    ((s.setBank bank v).deliver dest out).finish.bank bank = v ∧
    ((s.setBank bank v).deliver dest out).finish.bank bank.other = s.bank bank.other :=
  ⟨State.bank_eq_of_kept (s.setBank_bank bank v) (by simp) (by simp),
    State.bank_eq_of_kept (s.setBank_bank_other bank v) (by simp) (by simp)⟩

/-- Settles O22. -/
theorem squeezeToObufWritesTheOutputRegion : Obligations.SqueezeToObufWritesTheOutputRegion := by
  intro sch bank s hwf hfits
  obtain ⟨hbank, hother⟩ := s.squeezed_banks bank (squeeze Config.params sch (s.bank bank) s.mlen.toNat).1 .obuf
    (squeeze Config.params sch (s.bank bank) s.mlen.toNat).2
  obtain ⟨hinside, houtside⟩ := Memory.writeBytes_region hwf s.doff.toNat
    (length_squeeze Config.params sch (s.bank bank) s.mlen.toNat)
  refine ⟨_, exec_squeeze sch bank .obuf fun _ => hfits, hbank, hother, ?_, ?_, ?_⟩
  · simpa [squeezeLen] using hinside
  · simpa [squeezeLen] using houtside
  · cases bank <;> rfl

/-- A tag register holds the tag and zero after it (R25, D31). -/
theorem ByteReg.ofBytes_tag {sch : Scheme} {tag : List Byte} (hlen : tag.length = tagLen sch) :
    (∀ i < tagLen sch, (ByteReg.ofBytes tag).byte i = tag.getD i 0) ∧
    ∀ i, tagLen sch ≤ i → (ByteReg.ofBytes tag).byte i = 0 := by
  have hle := tagLen_le sch
  refine ⟨fun i hi => ByteReg.byte_ofBytes tag i (by omega), fun i hi => ?_⟩
  by_cases h : i < 16
  · rw [ByteReg.byte_ofBytes tag i h, List.getD_eq_default _ _ (by omega)]
  · exact ByteReg.byte_of_le _ i (by omega)

/-- Settles O23. -/
theorem squeezeToTagRegisterPadsWithZero : Obligations.SqueezeToTagRegisterPadsWithZero := by
  rintro sch bank s r rfl
  have hbanks := s.squeezed_banks bank (squeeze Config.params sch (s.bank bank) (tagLen sch)).1
  obtain ⟨htag, hpad⟩ := ByteReg.ofBytes_tag (length_squeeze Config.params sch (s.bank bank) (tagLen sch))
  refine ⟨⟨_, exec_squeeze sch bank .tagout nofun, (hbanks .tagout _).1, (hbanks .tagout _).2, htag, hpad, ?_⟩,
    ⟨_, exec_squeeze sch bank .texp nofun, (hbanks .texp _).1, (hbanks .texp _).2, htag, hpad, ?_⟩⟩
  · cases bank <;> rfl
  · cases bank <;> rfl

/-! ## ENC and DEC -/

/-- The two regions ENC and DEC check (R243). -/
theorem malformed_eq_false_of_duplexRegionsFit {c : Params} {s : State} (h : s.DuplexRegionsFit c) :
    ∀ r ∈ [s.messageRegion, s.outputRegion], r.malformed c = false := by
  obtain ⟨hmessage, houtput⟩ := h
  simp only [List.forall_mem_cons]
  exact ⟨Region.malformed_of_fits hmessage, Region.malformed_of_fits houtput, nofun⟩

/-- ENC takes the message through the duplex and writes what comes out (R171). -/
theorem exec_enc (sch : Scheme) (bank : BankSel) (ls : Bool) {s : State} {msg : List Byte}
    (hfit : s.DuplexRegionsFit Config.params) (hmsg : s.ibuf.Holds s.moff s.mlen msg) {r : DuplexResult}
    (hr : r = duplexEnc Config.params sch (s.bank bank) msg ls (s.bank bank.other)) :
    exec (.enc sch bank ls) s = .next ((s.setDuplexBanks bank ls r).writeOutput r.out).finish := by
  rw [hr, ← State.messageBytes_of_holds hmsg]
  exact exec_of_pass (preCheck_eq_none rfl rfl (malformed_eq_false_of_duplexRegionsFit hfit))

/-- DEC does the same with the inverse duplex, and locks the output (R172). -/
theorem exec_dec (sch : Scheme) (bank : BankSel) (ls : Bool) {s : State} {msg : List Byte}
    (hfit : s.DuplexRegionsFit Config.params) (hmsg : s.ibuf.Holds s.moff s.mlen msg) {r : DuplexResult}
    (hr : r = duplexDec Config.params sch (s.bank bank) msg ls (s.bank bank.other)) :
    exec (.dec sch bank ls) s =
      .next (State.finish { (s.setDuplexBanks bank ls r).writeOutput r.out with outLock := true }) := by
  rw [hr, ← State.messageBytes_of_holds hmsg]
  exact exec_of_pass (preCheck_eq_none rfl rfl (malformed_eq_false_of_duplexRegionsFit hfit))

/-- What a state shows that has the banks of a duplex pass and its output in OBUF: `S`, `S'` with LS only, the output
region and the bytes around it (R171, R172). -/
theorem duplex_pass_effects {s t : State} {bank : BankSel} {ls : Bool} {r : DuplexResult} (hwf : s.obuf.wf)
    (hlen : r.out.length = s.mlen.toNat) (hbankA : t.bankA = (s.setDuplexBanks bank ls r).bankA)
    (hbankB : t.bankB = (s.setDuplexBanks bank ls r).bankB) (hobuf : t.obuf = s.obuf.writeBytes s.doff.toNat r.out) :
    t.bank bank = r.bank ∧ t.bank bank.other = (if ls then r.other else s.bank bank.other) ∧
    (∀ j < s.mlen.toNat, t.obuf.read (s.doff.toNat + j) = r.out.getD j 0) ∧
    ∀ a, a < s.doff.toNat ∨ s.doff.toNat + s.mlen.toNat ≤ a → t.obuf.read a = s.obuf.read a :=
  ⟨State.bank_eq_of_kept (s.setDuplexBanks_bank bank ls r) hbankA hbankB,
    State.bank_eq_of_kept (s.setDuplexBanks_bank_other bank ls r) hbankA hbankB,
    hobuf ▸ Memory.writeBytes_region hwf s.doff.toNat hlen⟩

/-- Settles O24. -/
theorem encWritesCiphertextAndFeedsBanks : Obligations.EncWritesCiphertextAndFeedsBanks := by
  intro sch bank ls s msg r hwf hfit hmsg hr
  have hlen : r.out.length = s.mlen.toNat := by rw [hr, length_duplexEnc, hmsg.1]
  obtain ⟨hbank, hother, hinside, houtside⟩ :=
    duplex_pass_effects (t := ((s.setDuplexBanks bank ls r).writeOutput r.out).finish) hwf hlen rfl rfl (by simp)
  refine ⟨_, exec_enc sch bank ls hfit hmsg hr, hbank, hother, hlen, hinside, houtside, ?_⟩
  cases bank <;> cases ls <;> rfl

/-- Settles O25. -/
theorem decWritesPlaintextAndLocksOutput : Obligations.DecWritesPlaintextAndLocksOutput := by
  intro sch bank ls s msg r hwf hfit hmsg hr
  have hlen : r.out.length = s.mlen.toNat := by rw [hr, length_duplexDec, hmsg.1]
  obtain ⟨hbank, hother, hinside, houtside⟩ :=
    duplex_pass_effects (t := State.finish { (s.setDuplexBanks bank ls r).writeOutput r.out with outLock := true })
      hwf hlen rfl rfl (by simp)
  refine ⟨_, exec_dec sch bank ls hfit hmsg hr, hbank, hother, hlen, hinside, houtside, ?_⟩
  cases bank <;> cases ls <;> rfl

end Sys2Proof.Machine
end

section
/-!
The end of the withholding of OBUF (O57): spec/42_aead_verify.md R206 to R208, spec/70_reset_and_hazards.md R270, R276.
Of everything a step can do, only CLEAR, a verify step and a reset write OUT_LOCK to 0.
-/

namespace Sys2Proof.Machine

/-- How the command that `decoded` holds, run in `s`, ends the withholding: CLEAR and a mismatch leave OBUF zero, a
match has used TEXP up, and VERIFY has then compared the whole tag (R206 to R208). -/
def ReleasesOutput (decoded : Except Illegal Instr) (s t : State) : Prop :=
  ((∀ a, t.obuf.read a = 0) ∧ (decoded = .ok .clear ∨
    ∃ sch, (decoded = .ok (.verify sch) ∨ decoded = .ok (.aeadDec sch)) ∧ t.errcode = .authenticationFailure)) ∨
  (t.authOk = true ∧ t.texp = ByteReg.zero ∧
    ∃ sch, (decoded = .ok (.verify sch) ∧ t.obuf = s.obuf ∧ ∀ i < tagLen sch, s.texp.byte i = s.tagin.byte i) ∨
      decoded = .ok (.aeadDec sch))

/-- A verify step erases OBUF with AUTHENTICATION_FAILURE, or has found the whole tag in TAGIN and keeps OBUF (R206). -/
theorem verifyAndComplete_output (s : State) (sch : Scheme) :
    ((∀ a, (s.verifyAndComplete sch).obuf.read a = 0) ∧
      (s.verifyAndComplete sch).errcode = .authenticationFailure) ∨
    ((s.verifyAndComplete sch).authOk = true ∧ (s.verifyAndComplete sch).texp = ByteReg.zero ∧
      (s.verifyAndComplete sch).obuf = s.obuf ∧ ∀ i < tagLen sch, s.texp.byte i = s.tagin.byte i) := by
  rcases verifyAndComplete_cases s sch with ⟨hmatch, e⟩ | ⟨-, e⟩ <;> rw [e]
  · exact .inr ⟨rfl, rfl, rfl, (ctEq_iff _ _ _).1 hmatch⟩
  · exact .inl ⟨Memory.read_nil, rfl⟩

/-- No command but CLEAR, VERIFY and AEAD_DEC ends the withholding; a failed pre-check does not either (R207, R246). -/
theorem commandAt_outLock {c : Params} {i : Instr} {s : State} (hbefore : s.outLock = true)
    (hafter : (commandAt c i s).outLock = false) : ReleasesOutput (.ok i) s (commandAt c i s) := by
  rcases commandAt_cases c i s with ⟨-, e⟩ | ⟨-, e⟩ <;> rw [e] at hafter ⊢
  · cases i with
    | clear => exact .inl ⟨Memory.read_nil, .inl rfl⟩
    | verify sch =>
      rcases verifyAndComplete_output s sch with ⟨herased, hcode⟩ | ⟨hauth, htexp, hkept, hmatch⟩
      · exact .inl ⟨herased, .inr ⟨sch, .inl rfl, hcode⟩⟩
      · exact .inr ⟨hauth, htexp, sch, .inl ⟨rfl, hkept, hmatch⟩⟩
    | aeadDec sch =>
      rcases verifyAndComplete_output _ sch with ⟨herased, hcode⟩ | ⟨hauth, htexp, -, -⟩
      · exact .inl ⟨herased, .inr ⟨sch, .inr rfl, hcode⟩⟩
      · exact .inr ⟨hauth, htexp, sch, .inr rfl⟩
    | nop | aeadEnc | init | absorb | permute | copy | squeeze | enc | dec =>
      simp [commandBody, hbefore] at hafter
  · simp [hbefore] at hafter

/-- The engine ends the withholding only by such a command (R207, R272). -/
theorem engineStep_outLock {s t : State} (hturn : engineStep s = .next t) (hbefore : s.outLock = true)
    (hafter : t.outLock = false) : s.phase = .run ∧ ReleasesOutput (decode s.cmd) s t := by
  rcases engineStep_cases s with ⟨-, e⟩ | ⟨-, e⟩ | ⟨-, -, -, e⟩ | ⟨hrun, i, hdecode, e⟩ <;>
    rw [e] at hturn <;> obtain rfl := Host.Outcome.next.inj hturn
  · simp [hbefore] at hafter
  · simp [hbefore] at hafter
  · simp [hbefore] at hafter
  · exact ⟨hrun, hdecode ▸ commandAt_outLock hbefore hafter⟩

/-- A supported write ends the withholding only by the soft reset, which erases OBUF (R29, R270, R271). -/
theorem hostWrite_outLock {c : Params} {s : State} {off : Nat} {v : Reg} (hbefore : s.outLock = true)
    (hafter : (hostWrite c s off v).outLock = false) :
    (∀ a, (hostWrite c s off v).obuf.read a = 0) ∧ off = 0x008 ∧ v.getLsbD 1 = true := by
  rcases hostWrite_cases c s off v with ⟨-, -, e⟩ | ⟨-, e⟩ <;> rw [e] at hafter ⊢
  · simp [hbefore] at hafter
  · cases htarget : portTarget c off with
    | ctrl =>
      rw [htarget, writeTarget] at hafter
      cases hsrst : v.getLsbD 1 with
      | false =>
        rw [s.writeCtrl_of_no_srst hsrst] at hafter
        simp [hbefore] at hafter
      | true =>
        rw [writeTarget, s.writeCtrl_of_srst hsrst]
        exact ⟨Memory.read_nil, portTarget_eq_ctrl htarget, rfl⟩
    | _ =>
      rw [htarget] at hafter
      simp [writeTarget, hbefore] at hafter

/-- A write at the port ends the withholding as the supported write it is (R61). -/
theorem portWrite_outLock {c : Params} {s : State} {width : AccessWidth} {off : BitVec 14} {v : Reg}
    (hbefore : s.outLock = true) (hafter : (portWrite c s width off v).outLock = false) :
    (∀ a, (portWrite c s width off v).obuf.read a = 0) ∧ width = .word ∧ off = 0x008 ∧ v.getLsbD 1 = true := by
  rcases portWrite_cases c s width off v with ⟨hwidth, e⟩ | e <;> rw [e] at hafter ⊢
  · obtain ⟨herased, hoff, hsrst⟩ := hostWrite_outLock hbefore hafter
    exact ⟨herased, hwidth, BitVec.eq_of_toNat_eq hoff, hsrst⟩
  · simp [hbefore] at hafter

/-- No read changes OUT_LOCK (R70). -/
theorem portRead_outLock (c : Params) (s : State) (width : AccessWidth) (off : BitVec 14) :
    (portRead c s width off).outLock = s.outLock := by
  unfold portRead
  split <;> rfl

/-- Settles O57, by the events a step can take. -/
theorem outLockEndsOnlyByVerificationClearOrReset : Obligations.OutLockEndsOnlyByVerificationClearOrReset := by
  intro s t hstep hbefore hafter
  rcases step_cases s t hstep with ⟨-, hturn⟩ | ⟨rest, -, hturn⟩ | ⟨rest, hport, rfl⟩ | ⟨width, off, rest, -, rfl⟩ |
    ⟨width, off, v, rest, hport, rfl⟩
  · obtain ⟨hrun, ⟨herased, hcause⟩ | hmatch⟩ := engineStep_outLock hturn hbefore hafter
    · exact .inl ⟨herased, .inr (.inr ⟨hrun, hcause⟩)⟩
    · exact .inr ⟨hrun, hmatch⟩
  · obtain ⟨hrun, ⟨herased, hcause⟩ | hmatch⟩ := engineStep_outLock (s := { s with port := rest }) hturn hbefore hafter
    · exact .inl ⟨herased, .inr (.inr ⟨hrun, hcause⟩)⟩
    · exact .inr ⟨hrun, hmatch⟩
  · exact .inl ⟨Memory.read_nil, .inl ⟨rest, hport⟩⟩
  · exact absurd ((portRead_outLock Config.params _ width off).symm.trans hafter) (by simp [hbefore])
  · obtain ⟨herased, rfl, rfl, hsrst⟩ := portWrite_outLock (s := { s with port := rest }) hbefore hafter
    exact .inl ⟨herased, .inr (.inl ⟨v, rest, hport, hsrst⟩)⟩

end Sys2Proof.Machine
end

section
/-!
The tag strategies (O41, O42): spec/42_aead_verify.md R203, R204. The Elephant tag state is fed what the main state is
fed. The ISAP tag reads words 0 and 1 of the bank after absorption; a block goes into word 0, and the six rounds after
it move every word by one place (6 mod 5), so that three blocks reach words 4, 3 and 2 only.
-/

namespace Sys2Proof.Machine

/-! ## Elephant: lock-step -/

theorem duplexEnc_lockStep (c : Params) (sch : Scheme) (a : Bank) (data : List Byte) :
    (duplexEnc c sch a data true a).other = (duplexEnc c sch a data true a).bank := by
  induction data using block_induction generalizing a with
  | nil => rfl
  | block blk rest hfirst ih =>
    rw [hfirst.duplexEnc_append c sch a a true rfl]
    exact ih _

theorem duplexDec_lockStep (c : Params) (sch : Scheme) (a : Bank) (data : List Byte) :
    (duplexDec c sch a data true a).other = (duplexDec c sch a data true a).bank := by
  induction data using block_induction generalizing a with
  | nil => rfl
  | block blk rest hfirst ih =>
    rw [hfirst.duplexDec_append c sch a a true rfl rfl]
    exact ih _

/-- Eight squeezed bytes are the image of word 0, and move no word (R165, R203). -/
theorem squeeze_eight (c : Params) (sch : Scheme) (a : Bank) : squeeze c sch a 8 = (a, wbytes (a.word 0)) := by
  rw [squeeze_of_le_eight c sch a le_rfl, keystream_eight]

/-- Settles O41. -/
theorem elephantTagStateRunsInLockStep : Obligations.ElephantTagStateRunsInLockStep := by
  intro c a data
  refine ⟨duplexEnc_lockStep c .elephant a data, duplexDec_lockStep c .elephant a data, ?_⟩
  rw [squeeze_eight, duplexEnc_lockStep]

/-! ## ISAP: the words a short ciphertext reaches -/

/-- A round takes word `i` from one word of the bank before it, its neighbour (R126, R127). -/
theorem isapRound_word_congr (k : Word) {a b : Bank} {i : Nat} (hi : i < 5)
    (h : a.word ((i + 1) % 5) = b.word ((i + 1) % 5)) : (isapRound k a).word i = (isapRound k b).word i := by
  rw [← BitVec.xor_eq_zero_iff, isapRound_word_xor k a b hi, h, BitVec.xor_self]
  interval_cases i <;> decide

/-- `n` rounds take word `i` from the word `n` places on. -/
theorem isapRounds_word_congr (ks : List Word) {a b : Bank} {i : Nat} (hi : i < 5)
    (h : a.word ((i + ks.length) % 5) = b.word ((i + ks.length) % 5)) :
    (isapRounds ks a).word i = (isapRounds ks b).word i := by
  induction ks generalizing a b with
  | nil => simpa [isapRounds, Nat.mod_eq_of_lt hi] using h
  | cons k ks ih =>
    refine ih (isapRound_word_congr k (Nat.mod_lt _ (by omega)) ?_)
    rwa [Nat.mod_add_mod, Nat.add_assoc]

/-- The six reduced rounds take word `i` from word `i + 1` (R135). -/
theorem permReduced_isap_word_congr (c : Params) {a b : Bank} {i : Nat} (hi : i < 4)
    (h : a.word (i + 1) = b.word (i + 1)) :
    (permReduced c .isap a).word i = (permReduced c .isap b).word i := by
  rw [permReduced, permReduced, perm, perm, isapPerm_eq_rounds, isapPerm_eq_rounds]
  refine isapRounds_word_congr _ (by omega) ?_
  have hplace : (i + 6) % 5 = i + 1 := by omega
  simpa [reducedRounds, hplace] using h

/-- The two banks agree on their first `n` words. -/
def Bank.AgreeBelow (n : Nat) (a b : Bank) : Prop := ∀ i < n, a.word i = b.word i

/-- Whatever goes into word 0 reaches, with the reduced permutation after it, the last of the words that agree. -/
theorem Bank.AgreeBelow.permReduced_xorWord0 {n : Nat} {a b : Bank} (h : a.AgreeBelow (n + 1) b) (hn : n ≤ 4)
    (c : Params) (x y : Word) :
    Bank.AgreeBelow n (permReduced c .isap (a.xorWord0 x)) (permReduced c .isap (b.xorWord0 y)) := by
  intro i hi
  refine permReduced_isap_word_congr c (by omega) ?_
  simpa using h (i + 1) (by omega)

/-- A block is absorbed by one XOR into word 0 and the reduced permutation (R164). -/
theorem absorbBlocks_cons (c : Params) (sch : Scheme) (d : Byte) (blk : List Byte) (rest : List (List Byte))
    (a : Bank) :
    ∃ x, absorbBlocks c sch d (blk :: rest) a = absorbBlocks c sch d rest (permReduced c sch (a.xorWord0 x)) := by
  rw [absorbBlocks]
  cases rest with
  | nil => exact ⟨_, by rw [← Bank.xorWord0_xorWord0]; rfl⟩
  | cons blk rest => exact ⟨_, rfl⟩

section
variable {c c' : Params} (hperm : permReduced c' .isap = permReduced c .isap)
include hperm

/-- Of two banks that have absorbed equally many blocks, with any bytes and domain bytes, one word less agrees for each
block (R164, R204). -/
theorem Bank.AgreeBelow.absorbBlocks {n : Nat} {a b : Bank} (d e : Byte) {xs ys : List (List Byte)}
    (hlen : xs.length = ys.length) (h : a.AgreeBelow (n + xs.length) b) (hn : n + xs.length ≤ 5) :
    Bank.AgreeBelow n (absorbBlocks c .isap d xs a) (absorbBlocks c' .isap e ys b) := by
  induction xs generalizing ys a b with
  | nil =>
    obtain rfl := List.length_eq_zero_iff.1 hlen.symm
    exact h
  | cons x xs ih =>
    obtain ⟨y, ys, rfl⟩ := List.exists_cons_of_length_eq_add_one hlen.symm
    obtain ⟨wx, hx⟩ := absorbBlocks_cons c .isap d x xs a
    obtain ⟨wy, hy⟩ := absorbBlocks_cons c' .isap e y ys b
    rw [List.length_cons, ← Nat.add_assoc] at h hn
    rw [hx, hy, hperm]
    exact ih (Nat.succ.inj hlen) (h.permReduced_xorWord0 (by omega) c wx wy) (by omega)

/-- Sixteen squeezed bytes are the image of word 0 before and after the reduced permutation: words 0 and 1 (R165). -/
theorem squeeze_sixteen_congr {a b : Bank} (h : a.AgreeBelow 2 b) :
    (squeeze c .isap a 16).2 = (squeeze c' .isap b 16).2 := by
  have hfirst : a.word 0 = b.word 0 := h 0 (by omega)
  have hsecond : (permReduced c .isap a).word 0 = (permReduced c .isap b).word 0 :=
    permReduced_isap_word_congr c (by omega) (h 1 (by omega))
  simp [squeeze_of_gt_eight, squeeze_eight, hperm, hfirst, hsecond]

end

@[simp] theorem length_blocks (data : List Byte) : (blocks data).length = nb data.length := by simp [blocks]

/-- Settles O42: after at most three blocks words 0 and 1 still agree, and the tag is read from them. -/
theorem shortIsapTagIgnoresTheCiphertext : Obligations.ShortIsapTagIgnoresTheCiphertext := by
  intro c d key nonce x y hnb hx _
  have hperm : permReduced { c with tagDomainI := d } .isap = permReduced c .isap := rfl
  have hthree : nb x.length ≤ 3 := by
    simp only [nb]
    omega
  have hagree (a : Bank) : Bank.AgreeBelow 2 (absorb c .isap a x (tagDomain c .isap))
      (absorb { c with tagDomainI := d } .isap a y d) :=
    Bank.AgreeBelow.absorbBlocks hperm _ d (by simpa using hnb) (fun _ _ => rfl) (by simpa using by omega)
  exact squeeze_sixteen_congr hperm (hagree (initBank c .isap key nonce true))

end Sys2Proof.Machine
end

section
/-!
VERIFY, NOP and CLEAR, and the two whole operations (O14, O15, O27 to O29, O43): spec/42_aead_verify.md R201 to R209. A
whole operation is its pre-checks, `aeadEncrypt` or `aeadDecrypt` of the operands it finds, and the writes of the
result; the rules' steps name the same computation, and the two functions are inverse as the duplex functions are.
-/

namespace Sys2Proof.Machine

/-! ## NOP and CLEAR -/

/-- Settles O14. -/
theorem nopOnlyCompletes : Obligations.NopOnlyCompletes := fun _ => exec_of_pass (preCheck_eq_none rfl rfl nofun)

/-- CLEAR has nothing to check (R208). -/
theorem exec_clear (s : State) : exec .clear s = .next s.clearSecrets.finish :=
  exec_of_pass (preCheck_eq_none rfl rfl nofun)

/-- Settles O15. -/
theorem clearErasesAndCompletes : Obligations.ClearErasesAndCompletes := fun s =>
  ⟨_, exec_clear s, fun i => ⟨Bank.word_zero i, Bank.word_zero i⟩,
    fun i => ⟨ByteReg.byte_zero i, ByteReg.byte_zero i, ByteReg.byte_zero i⟩,
    fun a => ⟨Memory.read_nil a, Memory.read_nil a⟩, Memory.wf_nil, Memory.wf_nil, rfl⟩

/-! ## The verify step -/

theorem tagLenOk_of_declares {s : State} {sch : Scheme} (h : s.DeclaresTag sch) : s.tagLenOk sch = true := by
  cases sch <;> exact beq_iff_eq.2 h

/-- A verify step that finds the tag releases OBUF with AUTH_OK (R206). -/
theorem State.verifyAndComplete_of_match {s : State} {sch : Scheme}
    (h : ∀ i < tagLen sch, s.texp.byte i = s.tagin.byte i) :
    s.verifyAndComplete sch =
      { s with texp := ByteReg.zero, authOk := true, outLock := false, phase := .idle, done := true } := by
  rcases verifyAndComplete_cases s sch with ⟨-, e⟩ | ⟨hmismatch, -⟩
  · exact e
  · rw [(ctEq_iff _ _ _).2 h] at hmismatch
    contradiction

/-- A verify step that finds any byte of the tag different erases OBUF, with AUTHENTICATION_FAILURE (R206, R244). -/
theorem State.verifyAndComplete_of_mismatch {s : State} {sch : Scheme}
    (h : ∃ i < tagLen sch, s.texp.byte i ≠ s.tagin.byte i) :
    s.verifyAndComplete sch =
      { s with
        texp := ByteReg.zero, obuf := [], outLock := false, err := true, errcode := .authenticationFailure,
        errcmd := s.cmd, phase := .idle, done := true } := by
  obtain ⟨i, hi, hne⟩ := h
  rcases verifyAndComplete_cases s sch with ⟨hmatch, -⟩ | ⟨-, e⟩
  · exact absurd ((ctEq_iff _ _ _).1 hmatch i hi) hne
  · exact e

/-- VERIFY checks TAGLEN only, and is then the verify step (R206, R242). -/
theorem exec_verify {s : State} {sch : Scheme} (htag : s.DeclaresTag sch) :
    exec (.verify sch) s = .next (s.verifyAndComplete sch) :=
  exec_of_pass (preCheck_eq_none rfl (tagLenOk_of_declares htag) nofun)

/-- Settles O29. -/
theorem verifyReleasesOrErasesOutput : Obligations.VerifyReleasesOrErasesOutput := by
  intro sch s htag
  rw [exec_verify htag]
  refine ⟨fun hmatch => ?_, fun hmismatch => ⟨_, rfl, ?_, ?_⟩⟩
  · rw [State.verifyAndComplete_of_match hmatch]
  · rw [State.verifyAndComplete_of_mismatch hmismatch]
    exact Memory.read_nil
  · rw [State.verifyAndComplete_of_mismatch hmismatch]

/-! ## The whole operations as functions -/

/-- The main state of the rule's steps 2 and 3 is the start of the computation (R201). -/
theorem eq_aeadStart_of_mainState {c : Params} {sch : Scheme} {key nonce ad : List Byte} {main : Bank}
    (h : MainState c sch key nonce ad main) : main = aeadStart c sch key nonce ad := by
  cases sch <;> simpa [aeadStart, adDomain, List.isEmpty_iff] using h

/-- Decryption of the ciphertext computes the plaintext and the same tag: the duplex is inverted and leaves the same
banks (R167, R202). -/
theorem aeadDecrypt_aeadEncrypt (c : Params) (sch : Scheme) (key nonce ad p : List Byte) :
    aeadDecrypt c sch key nonce ad (aeadEncrypt c sch key nonce ad p).1 =
      (p, (aeadEncrypt c sch key nonce ad p).2) := by
  cases sch <;> simp only [aeadDecrypt, aeadEncrypt, duplexDec_duplexEnc]

/-! ## AEAD_ENC and AEAD_DEC -/

/-- The three regions the whole operations check (R243). -/
theorem malformed_eq_false_of_aeadRegionsFit {c : Params} {s : State} (h : s.AeadRegionsFit c) :
    ∀ r ∈ [s.adRegion, s.messageRegion, s.outputRegion], r.malformed c = false := by
  obtain ⟨had, hmessage, houtput⟩ := h
  simp only [List.forall_mem_cons]
  exact ⟨Region.malformed_of_fits had, Region.malformed_of_fits hmessage, Region.malformed_of_fits houtput, nofun⟩

/-- What AEAD_ENC computes of the operands it finds (R201). -/
def State.encrypted (s : State) (sch : Scheme) : List Byte × List Byte :=
  aeadEncrypt Config.params sch s.keyBytes (s.nonceBytes sch) s.adBytes s.messageBytes

/-- What AEAD_DEC computes of the operands it finds, before the verify step (R202). -/
def State.decrypted (s : State) (sch : Scheme) : List Byte × List Byte :=
  aeadDecrypt Config.params sch s.keyBytes (s.nonceBytes sch) s.adBytes s.messageBytes

theorem State.length_encrypted_fst (s : State) (sch : Scheme) : (s.encrypted sch).1.length = s.mlen.toNat := by
  rw [State.encrypted, length_aeadEncrypt_fst, length_messageBytes]

theorem State.length_encrypted_snd (s : State) (sch : Scheme) : (s.encrypted sch).2.length = tagLen sch :=
  length_aeadEncrypt_snd ..

theorem State.length_decrypted_fst (s : State) (sch : Scheme) : (s.decrypted sch).1.length = s.mlen.toNat := by
  rw [State.decrypted, length_aeadDecrypt_fst, length_messageBytes]

/-- AEAD_ENC writes the ciphertext and the tag, and zeroes the rest of its working state (R201, R210). -/
theorem exec_aeadEnc {s : State} {sch : Scheme} (hkey : s.DeclaresKey) (hnonce : s.DeclaresNonce sch)
    (hfit : s.AeadRegionsFit Config.params) :
    exec (.aeadEnc sch) s =
      .next (State.finish { (s.writeOutput (s.encrypted sch).1).zeroise with
        tagout := ByteReg.ofBytes (s.encrypted sch).2 }) :=
  exec_of_pass (preCheck_eq_none rfl (by simp [lengthsOk, keyLenOk_of_declares hkey, nonceLenOk_of_declares hnonce])
    (malformed_eq_false_of_aeadRegionsFit hfit))

/-- Settles O27. -/
theorem aeadEncWritesCiphertextAndTag : Obligations.AeadEncWritesCiphertextAndTag := by
  rintro sch s key nonce ad msg ct tag main q hwf hkey hnonce hfit rfl rfl had hmsg hmain hsteps
  have hencrypted : s.encrypted sch = (ct, tag) := by
    rw [State.encrypted, State.messageBytes_of_holds hmsg, State.adBytes, Memory.readBytes_of_holds had]
    obtain rfl := eq_aeadStart_of_mainState hmain
    cases sch <;> obtain ⟨rfl, rfl, rfl⟩ := hsteps <;> rfl
  have hct : ct.length = s.mlen.toNat := by rw [← s.length_encrypted_fst sch, hencrypted]
  have htag : tag.length = tagLen sch := by rw [← s.length_encrypted_snd sch, hencrypted]
  obtain ⟨hinside, houtside⟩ := Memory.writeBytes_region hwf s.doff.toNat hct
  obtain ⟨hbytes, hpad⟩ := ByteReg.ofBytes_tag htag
  refine ⟨_, exec_aeadEnc hkey hnonce hfit, hct, htag, ?_⟩
  rw [hencrypted]
  exact ⟨hinside, houtside, hbytes, hpad, rfl⟩

/-- The state of AEAD_DEC at its verify step: the plaintext in OBUF, the expected tag in TEXP (R202). -/
def State.withDecrypted (s : State) (pt tag : List Byte) : State :=
  { (s.writeOutput pt).zeroise with texp := ByteReg.ofBytes tag }

section
variable {s : State} {sch : Scheme} {pt tag : List Byte} (hkey : s.DeclaresKey) (hnonce : s.DeclaresNonce sch)
  (htagin : s.DeclaresTag sch) (hfit : s.AeadRegionsFit Config.params) (hdecrypted : s.decrypted sch = (pt, tag))
include hkey hnonce htagin hfit hdecrypted

/-- AEAD_DEC is the verify step on what it has decrypted (R202). -/
theorem exec_aeadDec : exec (.aeadDec sch) s = .next ((s.withDecrypted pt tag).verifyAndComplete sch) := by
  have hpass : preCheck Config.params (.aeadDec sch) s = .none := preCheck_eq_none rfl
    (by simp [lengthsOk, keyLenOk_of_declares hkey, nonceLenOk_of_declares hnonce, tagLenOk_of_declares htagin])
    (malformed_eq_false_of_aeadRegionsFit hfit)
  have hpt : pt = (s.decrypted sch).1 := by rw [hdecrypted]
  have htag : tag = (s.decrypted sch).2 := by rw [hdecrypted]
  rw [hpt, htag]
  exact exec_of_pass hpass

/-- With the expected tag in TAGIN, AEAD_DEC releases the plaintext (R202, R206). -/
theorem exec_aeadDec_of_match (hmatch : ∀ i < tagLen sch, s.tagin.byte i = tag.getD i 0) :
    exec (.aeadDec sch) s = .next { s with
      bankA := Bank.zero, bankB := Bank.zero, texp := ByteReg.zero, obuf := s.obuf.writeBytes s.doff.toNat pt,
      authOk := true, outLock := false, phase := .idle, done := true } := by
  rw [exec_aeadDec hkey hnonce htagin hfit hdecrypted, State.verifyAndComplete_of_match]
  · rfl
  · intro i hi
    have hle := tagLen_le sch
    exact (ByteReg.byte_ofBytes tag i (by omega)).trans (hmatch i hi).symm

/-- With any other tag in TAGIN, AEAD_DEC erases OBUF (R202, R206). -/
theorem exec_aeadDec_of_mismatch (hmismatch : ∃ i < tagLen sch, s.tagin.byte i ≠ tag.getD i 0) :
    exec (.aeadDec sch) s = .next { s with
      bankA := Bank.zero, bankB := Bank.zero, texp := ByteReg.zero, obuf := [], outLock := false, err := true,
      errcode := .authenticationFailure, errcmd := s.cmd, phase := .idle, done := true } := by
  rw [exec_aeadDec hkey hnonce htagin hfit hdecrypted, State.verifyAndComplete_of_mismatch]
  · rfl
  · obtain ⟨i, hi, hne⟩ := hmismatch
    have hle := tagLen_le sch
    exact ⟨i, hi, fun heq => hne (heq.symm.trans (ByteReg.byte_ofBytes tag i (by omega)))⟩

end

/-- Settles O28. -/
theorem aeadDecReleasesOrErasesPlaintext : Obligations.AeadDecReleasesOrErasesPlaintext := by
  rintro sch s key nonce ad ct pt tag main q hwf hkey hnonce htagin hfit rfl rfl had hct hmain hsteps
  have hdecrypted : s.decrypted sch = (pt, tag) := by
    rw [State.decrypted, State.messageBytes_of_holds hct, State.adBytes, Memory.readBytes_of_holds had]
    obtain rfl := eq_aeadStart_of_mainState hmain
    cases sch <;> obtain ⟨rfl, rfl, rfl⟩ := hsteps <;> rfl
  have hpt : pt.length = s.mlen.toNat := by rw [← s.length_decrypted_fst sch, hdecrypted]
  obtain ⟨hinside, houtside⟩ := Memory.writeBytes_region hwf s.doff.toNat hpt
  exact ⟨fun hmatch =>
      ⟨_, exec_aeadDec_of_match hkey hnonce htagin hfit hdecrypted hmatch, hinside, houtside, rfl⟩,
    fun hmismatch =>
      ⟨_, exec_aeadDec_of_mismatch hkey hnonce htagin hfit hdecrypted hmismatch, Memory.read_nil, rfl⟩⟩

/-! ## The round trip -/

/-- Two buffers with the same bytes in two regions read the same string there (R69). -/
theorem Memory.readBytes_congr {m m' : Memory} {off off' n : Nat}
    (h : ∀ j < n, m.read (off + j) = m'.read (off' + j)) : m.readBytes off n = m'.readBytes off' n :=
  List.map_congr_left fun j hj => h j (List.mem_range.1 hj)

/-- The nonce of a scheme is the first bytes of NONCE (R23). -/
theorem State.nonceBytes_congr {s u : State} {sch : Scheme} (h : ∀ i < nonceLen sch, u.nonce.byte i = s.nonce.byte i) :
    u.nonceBytes sch = s.nonceBytes sch := by
  apply List.ext_getElem
  · simp [State.nonceBytes]
  · intro i hi _
    simp only [State.nonceBytes, List.length_take, Vector.length_toList, lt_min_iff] at hi
    obtain ⟨hlen, h16⟩ := hi
    simpa [State.nonceBytes, ByteReg.byte_eq_getElem _ i h16] using h i hlen

/-- Settles O43: AEAD_DEC finds in `u` the operands of AEAD_ENC with its ciphertext for the message, so it decrypts to
that message and expects that tag. -/
theorem aeadDecOfAeadEncReturnsThePlaintext : Obligations.AeadDecOfAeadEncReturnsThePlaintext := by
  intro sch s t u hwf hkey hnonce hfit henc huwf hukey hunonce hutag hufit hsameKey hsameNonce halen had hmlen hmsg
    htagin
  rw [exec_aeadEnc hkey hnonce hfit] at henc
  obtain rfl := Host.Outcome.next.inj henc
  have hct := s.length_encrypted_fst sch
  obtain ⟨hwritten, -⟩ := Memory.writeBytes_region hwf s.doff.toNat hct
  have hmessage : u.messageBytes = (s.encrypted sch).1 := by
    refine State.messageBytes_of_holds ⟨by rw [hct, hmlen], fun j hj => ?_⟩
    rw [hmlen] at hj
    exact ((hmsg j hj).trans (hwritten j hj)).symm
  have hadBytes : u.adBytes = s.adBytes := by
    rw [State.adBytes, halen]
    exact Memory.readBytes_congr had
  have hdecrypted : u.decrypted sch = (s.messageBytes, (s.encrypted sch).2) := by
    rw [State.decrypted, State.keyBytes, hsameKey, State.nonceBytes_congr hsameNonce, hadBytes, hmessage]
    exact aeadDecrypt_aeadEncrypt Config.params sch s.keyBytes (s.nonceBytes sch) s.adBytes s.messageBytes
  have hmatch : ∀ i < tagLen sch, u.tagin.byte i = (s.encrypted sch).2.getD i 0 := fun i hi =>
    (htagin i hi).trans ((ByteReg.ofBytes_tag (s.length_encrypted_snd sch)).1 i hi)
  obtain ⟨hreleased, -⟩ := Memory.writeBytes_region huwf u.doff.toNat (length_messageBytes s)
  refine ⟨_, exec_aeadDec_of_match hukey hunonce hutag hufit hdecrypted hmatch, rfl, rfl, rfl, fun j hj => ?_⟩
  rw [hreleased j hj]
  simp [State.messageBytes, Memory.readBytes, List.getD_eq_getElem?_getD, hj]

end Sys2Proof.Machine
end

section
/-!
How a command comes to an error (O6, O8, O11 to O13): spec/60_exceptions.md R241 to R248. A command word that comes
while the block is busy is dropped; an accepted one is stopped by its encoding or by a pre-check, with no other effect,
or fails its verification. And what the host can read of the secrets (O50): R253.
-/

namespace Sys2Proof.Machine

/-! ## A CMD write while busy -/

/-- A CMD write while busy is dropped and sets OVR, whatever the word and the phase (R31, R248). -/
theorem step_cmdWrite_of_busy {s : State} {w : Reg} {rest : List PortEvent} (hbusy : s.phase ≠ .idle)
    (hport : s.port = .write .word 0x010 w :: rest) :
    step s = .next { s with ovr := true, port := rest, response := some .writeDone } := by
  have hwrite : hostWrite Config.params { s with port := rest } (0x010 : BitVec 14).toNat w =
      { s with port := rest, ovr := true } := hostWrite_of_busy hbusy rfl
  rw [step, machineStep_write _ _ s _ _ _ rest hport, portWrite, if_pos (by decide), hwrite]

/-- Settles O8. -/
theorem cmdWriteIsAcceptedOrDropped : Obligations.CmdWriteIsAcceptedOrDropped := fun _ _ _ hport =>
  ⟨fun hidle => step_cmdWrite_of_idle hidle hport, fun hbusy => step_cmdWrite_of_busy hbusy hport⟩

/-! ## Raising an error -/

/-- An error that is raised leaves its record and the completion, and nothing else (R246, R247). -/
theorem State.raiseError_eq_failedWith (s : State) {e : ErrorCode} (h : e ≠ .none) :
    s.raiseError e = s.failedWith e := by
  simp [State.raiseError, State.complete, State.failedWith, (ErrorCode.isError_iff e).2 h]

/-- The engine's turn on a latched word that does not decode raises ILLEGAL_COMMAND (R241). -/
theorem engineTurn_of_illegal {run : Instr → State → Host.Outcome State Fault Refusal} {s : State} {e : Illegal}
    (hrun : s.phase = .run) (hdecode : decode s.cmd = .error e) :
    engineTurn run s = .next (s.failedWith .illegalCommand) := by
  simp [engineTurn, hrun, hdecode, s.raiseError_eq_failedWith]

/-- Settles O6: the turn is taken from the list, and the engine finds the word illegal. -/
theorem illegalWordCompletesWithIllegalCommand : Obligations.IllegalWordCompletesWithIllegalCommand := by
  intro s rest e hrun hturn hdecode
  rw [step, machineStep_engine _ _ s rest hturn]
  exact engineTurn_of_illegal hrun hdecode

/-- A command that fails a pre-check raises the code of that check (R245, R246). -/
theorem exec_of_fail {i : Instr} {s : State} {e : ErrorCode} (hcheck : preCheck Config.params i s = e)
    (herror : e ≠ .none) : exec i s = .next (s.failedWith e) := by
  subst hcheck
  rw [exec_eq, commandAt_eq, runCommand_of_fail _ i _ s herror, s.raiseError_eq_failedWith herror]

/-! ## Wrong lengths -/

/-- A wrong length field decides the code of a well-formed command (R242, R245). -/
theorem preCheck_eq_invalidParameter {c : Params} {i : Instr} {s : State} (hwf : i.WellFormed)
    (hlengths : ¬lengthsOk s i = true) : preCheck c i s = .invalidParameter := by
  simp [preCheck, hwf, hlengths]

/-- A wrong length field ends a well-formed command, whatever the regions hold (R242, R246). -/
theorem exec_of_wrong_lengths {i : Instr} {s : State} (hwf : i.WellFormed) (hlengths : ¬lengthsOk s i = true) :
    exec i s = .next (s.failedWith .invalidParameter) :=
  exec_of_fail (preCheck_eq_invalidParameter hwf hlengths) nofun

theorem keyLenOk_iff (s : State) (sch : Scheme) : s.keyLenOk sch = true ↔ s.DeclaresKey := by
  cases sch <;> exact beq_iff_eq

theorem nonceLenOk_iff (s : State) (sch : Scheme) : s.nonceLenOk sch = true ↔ s.DeclaresNonce sch := by
  cases sch <;> exact beq_iff_eq

theorem tagLenOk_iff (s : State) (sch : Scheme) : s.tagLenOk sch = true ↔ s.DeclaresTag sch := by
  cases sch <;> exact beq_iff_eq

/-- INIT and AEAD_ENC check KEYLEN and NONCELEN (R242). -/
theorem keyNonceLenOk_iff (s : State) (sch : Scheme) :
    (s.keyLenOk sch && s.nonceLenOk sch) = true ↔ s.DeclaresKey ∧ s.DeclaresNonce sch := by
  rw [Bool.and_eq_true, keyLenOk_iff, nonceLenOk_iff]

/-- AEAD_DEC checks all three lengths (R242). -/
theorem lengthsOk_aeadDec_iff (s : State) (sch : Scheme) :
    lengthsOk s (.aeadDec sch) = true ↔ s.DeclaresKey ∧ s.DeclaresNonce sch ∧ s.DeclaresTag sch := by
  rw [lengthsOk, Bool.and_eq_true, keyNonceLenOk_iff, tagLenOk_iff, and_assoc]

/-- Settles O11: each command's length check is the condition of its row, and a failed one ends the command. -/
theorem wrongLengthsRaiseInvalidParameter : Obligations.WrongLengthsRaiseInvalidParameter := by
  intro sch s
  refine ⟨fun hwrong => ⟨fun bank sfx => ?init, ?aeadEnc⟩, fun hwrong => ?aeadDec, fun hwrong => ?verify⟩
  case init => exact exec_of_wrong_lengths rfl (mt (keyNonceLenOk_iff s sch).1 hwrong)
  case aeadEnc => exact exec_of_wrong_lengths rfl (mt (keyNonceLenOk_iff s sch).1 hwrong)
  case aeadDec => exact exec_of_wrong_lengths rfl (mt (lengthsOk_aeadDec_iff s sch).1 hwrong)
  case verify => exact exec_of_wrong_lengths rfl (mt (tagLenOk_iff s sch).1 hwrong)

/-! ## Overrunning regions -/

/-- An overrunning region decides the code when the command is well formed and its lengths are right (R243, R245). -/
theorem preCheck_eq_malformedInput {c : Params} {i : Instr} {s : State} (hwf : i.WellFormed)
    (hlengths : lengthsOk s i = true) (hoverrun : ¬∀ r ∈ checkedRegions s i, r.malformed c = false) :
    preCheck c i s = .malformedInput := by
  have hany : (checkedRegions s i).any (Region.malformed c) = true := by simpa using hoverrun
  rw [preCheck, hwf, hlengths, hany]
  rfl

/-- An overrunning region ends a well-formed command whose lengths are right (R243, R246). -/
theorem exec_of_overrun {i : Instr} {s : State} (hwf : i.WellFormed) (hlengths : lengthsOk s i = true)
    (hoverrun : ¬∀ r ∈ checkedRegions s i, r.malformed Config.params = false) :
    exec i s = .next (s.failedWith .malformedInput) :=
  exec_of_fail (preCheck_eq_malformedInput hwf hlengths hoverrun) nofun

/-- A region that is not malformed fits (R243). -/
theorem fits_of_malformed_eq_false {c : Params} {off len : BitVec 16}
    (h : Region.malformed c ⟨off.toNat, len.toNat⟩ = false) : Fits c off len :=
  (Region.fits c _ h).imp_left BitVec.eq_of_toNat_eq

/-- The regions of ENC and DEC, when none is malformed (R243). -/
theorem duplexRegionsFit_of_malformed_eq_false {c : Params} {s : State}
    (h : ∀ r ∈ [s.messageRegion, s.outputRegion], r.malformed c = false) : s.DuplexRegionsFit c := by
  simp only [List.forall_mem_cons] at h
  obtain ⟨hmessage, houtput, -⟩ := h
  exact ⟨fits_of_malformed_eq_false hmessage, fits_of_malformed_eq_false houtput⟩

/-- The regions of AEAD_ENC and AEAD_DEC, when none is malformed (R243). -/
theorem aeadRegionsFit_of_malformed_eq_false {c : Params} {s : State}
    (h : ∀ r ∈ [s.adRegion, s.messageRegion, s.outputRegion], r.malformed c = false) : s.AeadRegionsFit c := by
  rw [List.forall_mem_cons] at h
  obtain ⟨had, hduplex⟩ := h
  exact ⟨fits_of_malformed_eq_false had, duplexRegionsFit_of_malformed_eq_false hduplex⟩

/-- Settles O12: were no checked region malformed, the command's regions would all fit. -/
theorem overrunningRegionsRaiseMalformedInput : Obligations.OverrunningRegionsRaiseMalformedInput := by
  intro sch bank s
  refine ⟨fun hout src dom => ?absorb, fun hout => ?squeeze, fun hout ls => ⟨?enc, ?dec⟩,
    fun hout hkey hnonce => ⟨?aeadEnc, fun htag => ?aeadDec⟩⟩
  case absorb =>
    exact exec_of_overrun rfl rfl fun hfine =>
      hout (fits_of_malformed_eq_false (hfine s.messageRegion (List.mem_singleton_self _)))
  case squeeze =>
    exact exec_of_overrun rfl rfl fun hfine =>
      hout (fits_of_malformed_eq_false (hfine s.outputRegion (List.mem_singleton_self _)))
  case enc => exact exec_of_overrun rfl rfl (mt duplexRegionsFit_of_malformed_eq_false hout)
  case dec => exact exec_of_overrun rfl rfl (mt duplexRegionsFit_of_malformed_eq_false hout)
  case aeadEnc =>
    exact exec_of_overrun rfl ((keyNonceLenOk_iff s sch).2 ⟨hkey, hnonce⟩)
      (mt aeadRegionsFit_of_malformed_eq_false hout)
  case aeadDec =>
    exact exec_of_overrun rfl ((lengthsOk_aeadDec_iff s sch).2 ⟨hkey, hnonce, htag⟩)
      (mt aeadRegionsFit_of_malformed_eq_false hout)

/-! ## Where errors come from -/

/-- The verify step records an error only as AUTHENTICATION_FAILURE (R206, R244). -/
theorem verifyAndComplete_errcode {s : State} {sch : Scheme} (hbefore : s.err = false)
    (hafter : (s.verifyAndComplete sch).err = true) :
    (s.verifyAndComplete sch).errcode = .authenticationFailure := by
  rcases verifyAndComplete_cases s sch with ⟨-, e⟩ | ⟨-, e⟩
  · rw [e] at hafter
    simp [hbefore] at hafter
  · rw [e]

/-- Once the pre-checks have passed, only a failed verification records an error (R244, R245). -/
theorem commandBody_error {c : Params} {i : Instr} {s : State} (hbefore : s.err = false)
    (hafter : (commandBody c i s).err = true) :
    (commandBody c i s).errcode = .authenticationFailure ∧ ∃ sch, i = .verify sch ∨ i = .aeadDec sch := by
  cases i with
  | verify sch => exact ⟨verifyAndComplete_errcode hbefore hafter, sch, .inl rfl⟩
  | aeadDec sch => exact ⟨verifyAndComplete_errcode (by simpa using hbefore) hafter, sch, .inr rfl⟩
  | nop | clear | aeadEnc | init | absorb | permute | copy | squeeze | enc | dec =>
    simp [commandBody, hbefore] at hafter

/-- Settles O13: a command raises the code of a failed pre-check, or runs its body. -/
theorem errorsComeFromPreChecksOrVerification : Obligations.ErrorsComeFromPreChecksOrVerification := by
  intro i s t hbefore hexec hafter
  by_cases hcheck : preCheck Config.params i s = .none
  · rw [exec_of_pass hcheck] at hexec
    obtain rfl := Host.Outcome.next.inj hexec
    exact .inr (commandBody_error hbefore hafter)
  · rw [exec_of_fail rfl hcheck] at hexec
    obtain rfl := Host.Outcome.next.inj hexec
    exact .inl ⟨rfl, rfl⟩

/-! ## What the host can read -/

/-- A read is decided by BUSY and by what each target holds (R62, R68). -/
theorem hostRead_congr {c : Params} {s t : State} (hbusy : t.busy = s.busy)
    (htarget : ∀ target, readTarget c t target = readTarget c s target) (off : Nat) :
    hostRead c t off = hostRead c s off := by
  rw [hostRead, hostRead, hbusy, htarget]

/-- Settles O50: no target holds any of these elements, and BUSY is none of them. -/
theorem hostReadsRevealNoSecret : Obligations.HostReadsRevealNoSecret := by
  intro s off bankA bankB key texp cmd
  refine hostRead_congr rfl (fun target => ?_) off
  cases target <;> rfl

end Sys2Proof.Machine
end

section
/-!
Latency is independent of data (O60): spec/70_reset_and_hazards.md R277. What the latency may depend on is some
fields of the word, MLEN and ALEN, and the outcome of the pre-checks. BANK, LS and DOM are none of those fields, and no
pre-check reads them.
-/

namespace Sys2Proof

/-! ## The bits of a word that the latency may depend on -/

/-- The bits of OP, SCH, X and RND (R90): every field of a command word but BANK, LS and DOM. -/
def latencyBits : Reg := 0x000F33FF

/-- Two words that agree where a mask is 1 agree in every field the mask covers. -/
theorem extractLsb'_eq_of_and_eq {m v w : Reg} {start len : Nat}
    (hcovered : m.extractLsb' start len = BitVec.allOnes len) (h : v &&& m = w &&& m) :
    v.extractLsb' start len = w.extractLsb' start len := by
  have hmasked : (v &&& m).extractLsb' start len = (w &&& m).extractLsb' start len := by rw [h]
  simpa only [BitVec.extractLsb'_and, hcovered, BitVec.and_allOnes] using hmasked

theorem latencyFields_eq_of_and_eq {v w : Reg} (h : v &&& latencyBits = w &&& latencyBits) :
    fieldOp v = fieldOp w ∧ fieldSch v = fieldSch w ∧ fieldX v = fieldX w ∧ fieldRnd v = fieldRnd w :=
  ⟨extractLsb'_eq_of_and_eq rfl h, extractLsb'_eq_of_and_eq rfl h, extractLsb'_eq_of_and_eq rfl h,
    extractLsb'_eq_of_and_eq rfl h⟩

/-- BANK lies outside the mask (R93). -/
theorem bankBits_and_latencyBits (bank : BankSel) : bank.bits <<< 10 &&& latencyBits = 0 := by cases bank <;> rfl

/-- LS lies outside the mask (R94). -/
theorem lsBits_and_latencyBits (ls : Bool) : flagBits ls <<< 11 &&& latencyBits = 0 := by cases ls <;> rfl

/-- DOM lies outside the mask (R97). -/
theorem domainBits_and_latencyBits (dom : Byte) : dom.setWidth 32 <<< 24 &&& latencyBits = 0 := by
  revert dom
  decide

/-! ## The command without BANK, LS and DOM -/

/-- The command with BANK, LS and DOM at 0 and every other operand kept. -/
def Instr.dropBankLsDom : Instr → Instr
  | .nop => .nop
  | .aeadEnc sch => .aeadEnc sch
  | .aeadDec sch => .aeadDec sch
  | .clear => .clear
  | .init sch _ sfx => .init sch .a sfx
  | .absorb sch _ src _ => .absorb sch .a src 0
  | .squeeze sch _ dest => .squeeze sch .a dest
  | .enc sch _ _ => .enc sch .a false
  | .dec sch _ _ => .dec sch .a false
  | .permute sch _ rnd => .permute sch .a rnd
  | .copy _ => .copy .a
  | .verify sch => .verify sch

@[simp] theorem Instr.wellFormed_dropBankLsDom (i : Instr) : i.dropBankLsDom.wellFormed = i.wellFormed := by
  cases i <;> rfl

/-- The word keeps its bits in OP, SCH, X and RND. -/
theorem encode_dropBankLsDom_and_latencyBits (i : Instr) :
    encode i.dropBankLsDom &&& latencyBits = encode i &&& latencyBits := by
  cases i with
  | nop | clear | aeadEnc | aeadDec | verify => rfl
  | init | absorb | squeeze | enc | dec | permute | copy =>
    simp only [Instr.dropBankLsDom, encode, BitVec.and_or_distrib_right, bankBits_and_latencyBits,
      lsBits_and_latencyBits, domainBits_and_latencyBits]

end Sys2Proof

namespace Sys2Proof.Machine

/-! ## What the pre-checks read -/

/-- The length checks read LENS only (R242). -/
theorem lengthsOk_congr {s t : State} (hkey : s.lensKey = t.lensKey) (hnonce : s.lensNonce = t.lensNonce)
    (htag : s.lensTag = t.lensTag) (i : Instr) : lengthsOk s i = lengthsOk t i := by
  cases i <;> simp only [lengthsOk, State.keyLenOk, State.nonceLenOk, State.tagLenOk, hkey, hnonce, htag]

/-- The regions are those the region registers name (R243). -/
theorem checkedRegions_congr {s t : State} (haoff : s.aoff = t.aoff) (halen : s.alen = t.alen)
    (hmoff : s.moff = t.moff) (hmlen : s.mlen = t.mlen) (hdoff : s.doff = t.doff) (i : Instr) :
    checkedRegions s i = checkedRegions t i := by
  have had : s.adRegion = t.adRegion := by rw [State.adRegion, State.adRegion, haoff, halen]
  have hmessage : s.messageRegion = t.messageRegion := by rw [State.messageRegion, State.messageRegion, hmoff, hmlen]
  have houtput : s.outputRegion = t.outputRegion := by rw [State.outputRegion, State.outputRegion, hdoff, hmlen]
  cases i with
  | squeeze sch bank dest => cases dest <;> simp only [checkedRegions, houtput]
  | nop | clear | aeadEnc | aeadDec | init | absorb | enc | dec | permute | copy | verify =>
    simp only [checkedRegions, had, hmessage, houtput]

/-- A command is checked by its lengths and its regions, an illegal word by neither (R245). -/
theorem preCheckWord_congr {c : Params} {s t : State} (hlengths : ∀ i, lengthsOk s i = lengthsOk t i)
    (hregions : ∀ i, checkedRegions s i = checkedRegions t i) (w : Reg) : preCheckWord c w s = preCheckWord c w t := by
  unfold preCheckWord
  cases decode w with
  | error e => rfl
  | ok i => simp only [preCheck, hlengths, hregions]

/-- No pre-check reads BANK, LS or DOM (R242, R243). -/
theorem preCheck_dropBankLsDom (c : Params) (i : Instr) (s : State) : preCheck c i.dropBankLsDom s = preCheck c i s := by
  have hlengths : lengthsOk s i.dropBankLsDom = lengthsOk s i := by cases i <;> rfl
  have hregions : checkedRegions s i.dropBankLsDom = checkedRegions s i := by
    cases i with
    | squeeze sch bank dest => cases dest <;> rfl
    | nop | clear | aeadEnc | aeadDec | init | absorb | enc | dec | permute | copy | verify => rfl
  rw [preCheck, preCheck, Instr.wellFormed_dropBankLsDom, hlengths, hregions]

/-! ## The latency -/

/-- Words with the same OP, SCH, X and RND that use the same lengths take the same time where those lengths agree and
the pre-checks end alike (R277). -/
theorem commandLatency_congr {c : Params} {v w : Reg} {s t : State} (hbits : v &&& latencyBits = w &&& latencyBits)
    (husesMlen : usesMlen v = usesMlen w) (husesAlen : usesAlen v = usesAlen w)
    (hmlen : usesMlen w = true → s.mlen = t.mlen) (halen : usesAlen w = true → s.alen = t.alen)
    (hcheck : preCheckWord c v s = preCheckWord c w t) : commandLatency c v s = commandLatency c w t := by
  obtain ⟨hop, hsch, hx, hrnd⟩ := latencyFields_eq_of_and_eq hbits
  have hkeyMlen : (if usesMlen w then some s.mlen else none) = if usesMlen w then some t.mlen else none :=
    ite_congr rfl (fun h => congrArg some (hmlen h)) fun _ => rfl
  have hkeyAlen : (if usesAlen w then some s.alen else none) = if usesAlen w then some t.alen else none :=
    ite_congr rfl (fun h => congrArg some (halen h)) fun _ => rfl
  simp only [commandLatency, latencyKey, hop, hsch, hx, hrnd, husesMlen, husesAlen, hkeyMlen, hkeyAlen, hcheck]

/-- The fields BANK, LS and DOM do not enter the latency of a legal word (R277). -/
theorem commandLatency_dropBankLsDom (c : Params) {i : Instr} (hwf : i.WellFormed) (s : State) :
    commandLatency c (encode i.dropBankLsDom) s = commandLatency c (encode i) s := by
  have hword : decode (encode i) = .ok i := decodeOfEncodeIsTheCommand i hwf
  have hdropped : decode (encode i.dropBankLsDom) = .ok i.dropBankLsDom :=
    decodeOfEncodeIsTheCommand _ (i.wellFormed_dropBankLsDom.trans hwf)
  refine commandLatency_congr (encode_dropBankLsDom_and_latencyBits i) ?usesMlen ?usesAlen (fun _ => rfl) (fun _ => rfl)
    ?preCheck
  case usesMlen =>
    rw [usesMlen, usesMlen, hword, hdropped]
    cases i with
    | squeeze sch bank dest => cases dest <;> rfl
    | nop | clear | aeadEnc | aeadDec | init | absorb | enc | dec | permute | copy | verify => rfl
  case usesAlen =>
    rw [usesAlen, usesAlen, hword, hdropped]
    cases i <;> rfl
  case preCheck =>
    rw [preCheckWord, preCheckWord, hword, hdropped]
    exact preCheck_dropBankLsDom c i s

/-- Two legal words that differ in BANK, LS and DOM only take the same time. -/
theorem commandLatency_eq_of_drop_eq {c : Params} {i j : Instr} {s : State} (hi : i.WellFormed) (hj : j.WellFormed)
    (h : i.dropBankLsDom = j.dropBankLsDom) : commandLatency c (encode i) s = commandLatency c (encode j) s := by
  rw [← commandLatency_dropBankLsDom c hi, h, commandLatency_dropBankLsDom c hj]

/-- Settles O60: the latency reads the fields and lengths of its key only, the pre-checks read LENS and the regions, and
the words of each clause differ in BANK, LS and DOM only. -/
theorem latencyIsIndependentOfData : Obligations.LatencyIsIndependentOfData := by
  intro c w s t
  refine ⟨fun hmlen halen hcheck => commandLatency_congr rfl rfl rfl hmlen halen hcheck, ?preChecks,
    fun sch bank bank' => ⟨fun sfx => ?init, fun src d d' => ?absorb, fun dest => ?squeeze, fun ls ls' => ⟨?enc, ?dec⟩,
      fun rnd hrnd => ?permute, ?copy⟩⟩
  case preChecks =>
    intro hkey hnonce htag haoff halen hmoff hmlen hdoff
    exact preCheckWord_congr (lengthsOk_congr hkey hnonce htag) (checkedRegions_congr haoff halen hmoff hmlen hdoff) w
  case permute => exact commandLatency_eq_of_drop_eq (decide_eq_true hrnd) (decide_eq_true hrnd) rfl
  case init | absorb | squeeze | enc | dec | copy => exact commandLatency_eq_of_drop_eq rfl rfl rfl

end Sys2Proof.Machine
end

section
/-!
Both resets and the end of the clearing period (O54): spec/70_reset_and_hazards.md R270, R271, R272,
spec/10_state.md R29.
-/

namespace Sys2Proof.Machine

/-- The engine's turn in the clearing period ends it (R272). -/
theorem engineTurn_of_clearReset {run : Instr → State → Host.Outcome State Fault Refusal} {s : State}
    (hclearing : s.phase = .clearReset) : engineTurn run s = .next s.endClearing := by
  simp [engineTurn, hclearing]

/-- A CTRL write with SRST resets the block in every phase (R29, R270). -/
theorem hostWrite_srst (c : Params) (s : State) {v : Reg} (hsrst : v.getLsbD 1 = true) :
    hostWrite c s 0x008 v = s.resetBlock := by
  rw [hostWrite_of_open .ctrl rfl rfl, writeTarget, s.writeCtrl_of_srst hsrst]

/-- During the clearing period after a reset STATUS reads BUSY alone and CTRL reads 0 (R42, R272). -/
theorem hostRead_reset (c : Params) :
    hostRead c State.reset 0x00C = 0x00000001 ∧ hostRead c State.reset 0x008 = 0x00000000 := by
  constructor
  · rw [hostRead_of_readable .status rfl rfl]
    rfl
  · rw [hostRead_of_readable .ctrl rfl rfl]
    rfl

/-- Settles O54: either event leaves the block at its reset values, which are read off `State.reset`, and the engine's
turn in the clearing period changes the phase alone. -/
theorem resetErasesEverything : Obligations.ResetErasesEverything := by
  intro s rest v
  obtain ⟨hstatus, hctrl⟩ := hostRead_reset Config.params
  refine ⟨fun hport => machineStep_rst _ _ s rest hport, ?srst, by simp [State.reset], rfl, rfl, ⟨rfl, rfl, rfl⟩,
    ⟨rfl, rfl, rfl, rfl, rfl⟩, ⟨rfl, rfl, rfl, rfl, rfl, rfl, rfl⟩, hstatus, hctrl, rfl, rfl, ?clearing⟩
  case srst =>
    intro hport hsrst
    have hwrite : hostWrite Config.params { s with port := rest } (0x008 : BitVec 14).toNat v =
        State.resetBlock { s with port := rest } := hostWrite_srst _ _ hsrst
    rw [step, machineStep_write _ _ s _ _ _ rest hport, portWrite, if_pos (by decide), hwrite]
    rfl
  case clearing =>
    intro hclearing hturn
    rw [step, machineStep_engine _ _ s rest hturn]
    exact engineTurn_of_clearReset hclearing

end Sys2Proof.Machine
end
